-- ==== Sys2Proof/Word.lean ====
section
/-! DEFINITION. The plain number types of the MX48: bytes on a line or in the store, and the numbered parts of the
manifold (00_scope, Numbering). -/

namespace Sys2Proof

/-- A byte of a frame (R183) or of the configuration store (R190). -/
abbrev Byte := BitVec 8

/-- A branch index, 0 to 47: the physical position on the manifold (00_scope, Numbering). -/
abbrev BranchId := Fin 48

/-- A segment index, 0 to 15, which is also the index of the drip zone under it (R1). -/
abbrev SegId := Fin 16

/-- A module address on the segment link: 0 to 15 the segment modules, 16 the head module (R18). -/
abbrev ModuleId := Fin 17

/-- A slot tag, 0 to 127 (R3). -/
abbrev SlotTag := Fin 128

end Sys2Proof
end

