-- ==== Sys2Proof/Machine/Bytes.lean ====
section
/-! DEFINITION. Bytes on the lines and in the store: fields of more than one byte, high byte first (R183, R190), and the
16-bit CRC (R183). -/

namespace Sys2Proof.Machine

open Sys2Proof

/-- A one-byte field. -/
def byte1 (n : Nat) : List Byte := [BitVec.ofNat 8 n]

/-- A two-byte field, high byte first (R183). -/
def byte2 (n : Nat) : List Byte := [BitVec.ofNat 8 (n / 256), BitVec.ofNat 8 n]

/-- A four-byte field, high byte first (R183). -/
def byte4 (n : Nat) : List Byte :=
  [BitVec.ofNat 8 (n / 16777216), BitVec.ofNat 8 (n / 65536), BitVec.ofNat 8 (n / 256), BitVec.ofNat 8 n]

/-- A signed two-byte field (R187, R189). -/
def signed2 (z : Int) : List Byte := byte2 (BitVec.ofInt 16 z).toNat

/-- A signed four-byte field (R185, R190). -/
def signed4 (z : Int) : List Byte := byte4 (BitVec.ofInt 32 z).toNat

/-- A one-byte flag, 1 for yes. -/
def flag1 (b : Bool) : List Byte := byte1 (if b then 1 else 0)

/-- The byte at a position of a body or an image; 0 past its end, which no rule reads. -/
def at1 (bs : List Byte) (i : Nat) : Nat := (bs.getD i 0).toNat

/-- The unsigned two-byte field at a position, high byte first (R183). -/
def at2 (bs : List Byte) (i : Nat) : Nat := at1 bs i * 256 + at1 bs (i + 1)

/-- The unsigned four-byte field at a position, high byte first (R183). -/
def at4 (bs : List Byte) (i : Nat) : Nat := at2 bs i * 65536 + at2 bs (i + 2)

/-- The signed four-byte field at a position (R185). -/
def signedAt4 (bs : List Byte) (i : Nat) : Int := (BitVec.ofNat 32 (at4 bs i)).toInt

/-- One bit of the CRC's division by x^16 + x^12 + x^5 + 1 (R183). -/
def crcBit (crc : BitVec 16) : BitVec 16 := if crc.msb then (crc <<< 1) ^^^ 0x1021#16 else crc <<< 1

/-- One byte into the CRC, most significant bit first (R183). -/
def crcByte (crc : BitVec 16) (b : Byte) : BitVec 16 :=
  crcBit <| crcBit <| crcBit <| crcBit <| crcBit <| crcBit <| crcBit <| crcBit <| crc ^^^ ((b.zeroExtend 16) <<< 8)

/-- The CRC of R183: from 0xFFFF, no final inversion. -/
def crc16 (bs : List Byte) : BitVec 16 := bs.foldl crcByte 0xFFFF#16

/-- A frame: the sync byte, the length byte, the content it counts, and the CRC over length and content (R183). -/
def frameOf (sync : Byte) (content : List Byte) : List Byte :=
  sync :: BitVec.ofNat 8 content.length :: content ++ byte2 (crc16 (BitVec.ofNat 8 content.length :: content)).toNat

end Sys2Proof.Machine
end

