-- ==== Sys2Proof/Syntax.lean ====
section
/-! DEFINITION. The commands of the MX48: one constructor for each row of spec/opcode_table.json.

A REQUEST row is the end of a good frame on a link port: it carries the port and the frame's body bytes as they came
(R183, R185). Every other row is an EVENT: it carries `after`, the milliseconds that have passed since the command
before it (notes/assumptions/2.md), and what the event itself says. -/

namespace Sys2Proof

/-- The four link ports, each named by its master (R182). -/
inductive Port where
  | rm | ua | ub | sp
  deriving DecidableEq, Repr

/-- Feed A or feed B (00_scope, Numbering). -/
inductive Feed where
  | a | b
  deriving DecidableEq, Repr

/-- A tray level of a report, and a debounced zone state (R25, R140). -/
inductive ZoneLevel where
  | dry | damp | wet
  deriving DecidableEq, Repr

/-- What a shutoff or an inlet reports of itself (R21). -/
inductive Feedback where
  | opened | closed | moving
  deriving DecidableEq, Repr

/-- Why a request frame is discarded without an answer, in the order of R183's list. -/
inductive DiscardCause where
  | badSync | zeroLength | wrongCount | badCrc | whileAnswering
  deriving DecidableEq, Repr

/-- One position of a segment report (R21). The numbers are carried signed (R22); a temperature of `none` is FAULT. -/
structure PositionReport where
  supplyFlow : Int
  returnFlow : Int
  temperature : Option Int
  supplyFeedback : Int
  returnFeedback : Feedback
  deriving DecidableEq, Repr

/-- A segment report: the exchange number it echoes and its contents (R19, R21). -/
structure SegmentReport where
  number : Byte
  first : PositionReport
  second : PositionReport
  third : PositionReport
  level : ZoneLevel
  deriving DecidableEq, Repr

/-- A head report: the exchange number it echoes and its contents (R19, R21). -/
structure HeadReport where
  number : Byte
  pressureA : Int
  pressureB : Int
  inletA : Feedback
  inletB : Feedback
  deriving DecidableEq, Repr

/-- The commands: one constructor for each row of the table, in the table's order. -/
inductive Instr where
  -- requests, each the end of a good frame on a port (R185)
  | readStatus (port : Port) (body : List Byte)
  | readBranch (port : Port) (body : List Byte)
  | readSegment (port : Port) (body : List Byte)
  | readFeeds (port : Port) (body : List Byte)
  | readLeases (port : Port) (body : List Byte)
  | readPlan (port : Port) (body : List Byte)
  | readIncidents (port : Port) (body : List Byte)
  | readNotices (port : Port) (body : List Byte)
  | setNoticeMask (port : Port) (body : List Byte)
  | mapWrite (port : Port) (body : List Byte)
  | mapClear (port : Port) (body : List Byte)
  | admitBranch (port : Port) (body : List Byte)
  | release (port : Port) (body : List Byte)
  | pin (port : Port) (body : List Byte)
  | unpin (port : Port) (body : List Byte)
  | setDemand (port : Port) (body : List Byte)
  | setLimits (port : Port) (body : List Byte)
  | freeze (port : Port) (body : List Byte)
  | thaw (port : Port) (body : List Byte)
  | setTuning (port : Port) (body : List Byte)
  | grantBudget (port : Port) (body : List Byte)
  | withdrawBudget (port : Port) (body : List Byte)
  | switchFeed (port : Port) (body : List Byte)
  | lockFeed (port : Port) (body : List Byte)
  | isolateBranch (port : Port) (body : List Byte)
  | isolateZone (port : Port) (body : List Byte)
  | restoreBranch (port : Port) (body : List Byte)
  | restoreZone (port : Port) (body : List Byte)
  | clearZone (port : Port) (body : List Byte)
  | setZonePolicy (port : Port) (body : List Byte)
  | hold (port : Port) (body : List Byte)
  | releaseHold (port : Port) (body : List Byte)
  | clearFault (port : Port) (body : List Byte)
  | clearSafe (port : Port) (body : List Byte)
  | park (port : Port) (body : List Byte)
  | unpark (port : Port) (body : List Byte)
  | ackIncident (port : Port) (body : List Byte)
  | saveConfig (port : Port) (body : List Byte)
  | restart (port : Port) (body : List Byte)
  | unknownRequest (port : Port) (code : Byte) (body : List Byte)
  -- the rest of the link ports' events (R182, R183)
  | frameDiscarded (after : Nat) (port : Port) (cause : DiscardCause)
  | discardQuiet (after : Nat) (port : Port)
  | answerEnd (after : Nat) (port : Port)
  -- the Field Scanner (R19 to R27)
  | roundStart (after : Nat)
  | exchangeStart (after : Nat)
  | segmentReport (after : Nat) (segment : SegId) (report : SegmentReport)
  | headReport (after : Nat) (report : HeadReport)
  | exchangeMiss (after : Nat)
  -- the Cycle Timer (R75 to R78)
  | freeCycleStart (after : Nat)
  | lockedCycleStart (after : Nat)
  | mark (after : Nat) (input : Feed)
  | lossDeadline (after : Nat)
  -- windows, timers and ages that run out
  | primeWindowExpiry (after : Nat) (branch : BranchId)
  | backoffExpiry (after : Nat) (branch : BranchId)
  | ttlExpiry (after : Nat) (branch : BranchId)
  | freezeExpiry (after : Nat)
  | leaseT1Reached (after : Nat) (feed : Feed)
  | leaseT2Reached (after : Nat) (feed : Feed)
  | leaseLapse (after : Nat) (feed : Feed)
  | switchWindowExpiry (after : Nat)
  | closingOldExpiry (after : Nat)
  | lowPressureExpiry (after : Nat) (feed : Feed)
  | startupWindowExpiry (after : Nat)
  | isolateWindowExpiry (after : Nat) (branch : BranchId)
  | confirmExpiry (after : Nat) (zone : SegId)
  | parkWindowExpiry (after : Nat)
  -- the Store Controller (R193, R194); `acknowledged` is the EEPROM's answer to the attempt
  | markWriteStart (after : Nat)
  | markWriteEnd (after : Nat) (acknowledged : Bool)
  | markRetryExpiry (after : Nat)
  | savePageWriteEnd (after : Nat) (acknowledged : Bool)
  -- resets and start-up (R191, R195)
  | powerOn
  | resetNAssert (after : Nat)
  | resetNRelease (after : Nat)
  | restartReset (after : Nat)
  /-- `imageRead` and `marksRead` say whether the EEPROM acknowledged the read of each area within 3 attempts (R191,
  R192). -/
  | storeLoadComplete (after : Nat) (imageRead : Bool) (marksRead : Bool)
  | firstByteOfFrame (after : Nat) (port : Port) (byte : Byte)
  deriving DecidableEq, Repr

end Sys2Proof
end

