-- ==== Sys2Proof/Config.lean ====
section
/-! DEFINITION. What is fixed for every MX48 (the request catalogue's codes, the store's layout) and the FREE VALUES:
constants without a body, of which nothing can be proved, for what the manual leaves open. -/

namespace Sys2Proof.Config

/-- FREE VALUE (notes/assumptions/10.md): what uptime reads once more than 2^32 - 1 seconds have passed. 00_scope gives
uptime the range 0 to 2^32 - 1 and says nothing of what follows. -/
opaque uptimePastRange : Nat → BitVec 32

/-- FREE VALUE (notes/assumptions/11.md): the slot-tag byte that a saved image holds for an entry that is not valid. R190
gives every entry the nine bytes of the MAP_WRITE body and no value for the tag of an entry that has none. -/
opaque absentTagByte : Nat → BitVec 8

/-- FREE VALUE (notes/assumptions/6.md): which of several events that are due at one moment the part takes first. The manual
says throughout that "the outcome follows whichever the MX48 takes first" and not which that is. -/
opaque takenFirst : Nat → Nat

/-- The request codes of R185's catalogue. -/
def requestCodes : List Nat :=
  [0x01, 0x02, 0x03, 0x04, 0x05, 0x06, 0x07, 0x08, 0x09, 0x10, 0x11, 0x12, 0x13, 0x14, 0x15, 0x18, 0x19, 0x1A, 0x1B, 0x1C,
   0x20, 0x21, 0x24, 0x25, 0x30, 0x31, 0x32, 0x33, 0x34, 0x35, 0x36, 0x37, 0x38, 0x39, 0x3A, 0x3B, 0x3C, 0x40, 0x41]

/-- The configuration store is a serial EEPROM of 8 KiB (12_configuration_store_and_start_up, opening). -/
def storeBytes : Nat := 8192

/-- Start of the configuration image (R190). -/
def imageBase : Nat := 0x0000

/-- Bytes of the configuration image (R190). -/
def imageBytes : Nat := 622

/-- Start of the isolation-mark area (R190). -/
def marksBase : Nat := 0x1000

/-- Bytes of one EEPROM page (R190). -/
def pageBytes : Nat := 32

/-- Page writes of one save (R193). -/
def savePages : Nat := 20

/-- What a byte of the EEPROM that nothing has written reads as: 0xFF (DEDUCED from R192's "0xFF, 0xFF (never written)";
notes/assumptions/9.md). -/
def erasedByte : BitVec 8 := 0xFF

end Sys2Proof.Config
end

