-- ==== Sys2Proof/WellFormed.lean ====
section
/-! DEFINITION. Which commands are well formed: what a good frame can carry (R183, R185). -/

namespace Sys2Proof

/-- R183: a request frame's length byte is 1 to 255 and counts the code and the body, so a body has at most 254 bytes. -/
def bodyFits (body : List Byte) : Bool := decide (body.length ≤ 254)

/-- A command is well formed when a good frame can carry its body, and an UNKNOWN_REQUEST's code is outside R185's
catalogue. The other rows' operands are in range by their types. -/
def Instr.wf : Instr → Bool
  | .readStatus _ body | .readBranch _ body | .readSegment _ body | .readFeeds _ body | .readLeases _ body
  | .readPlan _ body | .readIncidents _ body | .readNotices _ body | .setNoticeMask _ body | .mapWrite _ body
  | .mapClear _ body | .admitBranch _ body | .release _ body | .pin _ body | .unpin _ body | .setDemand _ body
  | .setLimits _ body | .freeze _ body | .thaw _ body | .setTuning _ body | .grantBudget _ body
  | .withdrawBudget _ body | .switchFeed _ body | .lockFeed _ body | .isolateBranch _ body | .isolateZone _ body
  | .restoreBranch _ body | .restoreZone _ body | .clearZone _ body | .setZonePolicy _ body | .hold _ body
  | .releaseHold _ body | .clearFault _ body | .clearSafe _ body | .park _ body | .unpark _ body
  | .ackIncident _ body | .saveConfig _ body | .restart _ body => bodyFits body
  | .unknownRequest _ code body => bodyFits body && !(Config.requestCodes.contains code.toNat)
  | .frameDiscarded _ _ _ | .discardQuiet _ _ | .answerEnd _ _ | .roundStart _ | .exchangeStart _
  | .segmentReport _ _ _ | .headReport _ _ | .exchangeMiss _ | .freeCycleStart _ | .lockedCycleStart _ | .mark _ _
  | .lossDeadline _ | .primeWindowExpiry _ _ | .backoffExpiry _ _ | .ttlExpiry _ _ | .freezeExpiry _
  | .leaseT1Reached _ _ | .leaseT2Reached _ _ | .leaseLapse _ _ | .switchWindowExpiry _ | .closingOldExpiry _
  | .lowPressureExpiry _ _ | .startupWindowExpiry _ | .isolateWindowExpiry _ _ | .confirmExpiry _ _
  | .parkWindowExpiry _ | .markWriteStart _ | .markWriteEnd _ _ | .markRetryExpiry _ | .savePageWriteEnd _ _
  | .powerOn | .resetNAssert _ | .resetNRelease _ | .restartReset _ | .storeLoadComplete _ _ _
  | .firstByteOfFrame _ _ _ => true

end Sys2Proof
end

