-- ==== Sys2Proof/Decode.lean ====
section
/-! DEFINITION. Reading a command from bits: no row of the command table gives bits, so `decodeTableWord` answers none; and
reading a command from the bytes of a request frame (R183, R185). -/

namespace Sys2Proof

/-- The command a word spells by the bits of the command table: the table gives none of its rows any bits. -/
def decodeTableWord (_nbits _w : Nat) : Option Instr := none

namespace Decode

/-- The request a code and a body make on a port (R185); a code outside the catalogue is an UNKNOWN_REQUEST (R184). -/
def request (p : Port) (code : Byte) (body : List Byte) : Instr :=
  match code.toNat with
  | 0x01 => .readStatus p body
  | 0x02 => .readBranch p body
  | 0x03 => .readSegment p body
  | 0x04 => .readFeeds p body
  | 0x05 => .readLeases p body
  | 0x06 => .readPlan p body
  | 0x07 => .readIncidents p body
  | 0x08 => .readNotices p body
  | 0x09 => .setNoticeMask p body
  | 0x10 => .mapWrite p body
  | 0x11 => .mapClear p body
  | 0x12 => .admitBranch p body
  | 0x13 => .release p body
  | 0x14 => .pin p body
  | 0x15 => .unpin p body
  | 0x18 => .setDemand p body
  | 0x19 => .setLimits p body
  | 0x1A => .freeze p body
  | 0x1B => .thaw p body
  | 0x1C => .setTuning p body
  | 0x20 => .grantBudget p body
  | 0x21 => .withdrawBudget p body
  | 0x24 => .switchFeed p body
  | 0x25 => .lockFeed p body
  | 0x30 => .isolateBranch p body
  | 0x31 => .isolateZone p body
  | 0x32 => .restoreBranch p body
  | 0x33 => .restoreZone p body
  | 0x34 => .clearZone p body
  | 0x35 => .setZonePolicy p body
  | 0x36 => .hold p body
  | 0x37 => .releaseHold p body
  | 0x38 => .clearFault p body
  | 0x39 => .clearSafe p body
  | 0x3A => .park p body
  | 0x3B => .unpark p body
  | 0x3C => .ackIncident p body
  | 0x40 => .saveConfig p body
  | 0x41 => .restart p body
  | _ => .unknownRequest p code body

/-- The command that the end of a frame of these bytes makes on a port that was not ANSWERING when the frame began: a
discarded frame with the first cause of R183's list that holds, or the request. An empty frame is no frame. -/
def frame (after : Nat) (p : Port) (bytes : List Byte) : Option Instr :=
  match bytes with
  | [] => none
  | sync :: rest =>
    if sync ≠ 0xA5 then some (.frameDiscarded after p .badSync)
    else
      match rest with
      | [] => some (.frameDiscarded after p .wrongCount)
      | length :: content =>
        if length = 0 then some (.frameDiscarded after p .zeroLength)
        else if content.length ≠ length.toNat + 2 then some (.frameDiscarded after p .wrongCount)
        else if (Machine.crc16 (length :: content.take length.toNat)).toNat ≠ Machine.at2 content length.toNat then
          some (.frameDiscarded after p .badCrc)
        else
          match content.take length.toNat with
          | code :: body => some (request p code body)
          | [] => none

/-- The bytes of the request frame with this code and body (R183). -/
def frameBytes (code : Byte) (body : List Byte) : List Byte := Machine.frameOf 0xA5 (code :: body)

end Decode

end Sys2Proof
end

