-- ==== Sys2Proof/Machine/State.lean ====
section
/-! DEFINITION. The state of the MX48 as plain data, block by block (00_scope, Block overview), and the state right after
power-on reset. INVENTORY.md, State, names the rule of every field. -/

namespace Sys2Proof.Machine

open Sys2Proof

/-! ## Time (00_scope, Units) -/

/-- A time of seconds scale, held in steps of 100 ms (00_scope, Units): a remaining time or an age. `part` is the time in ms
that has passed since its last step, counted from its own start (notes/assumptions/3.md). -/
structure Timer where
  steps : Nat
  part : Nat
  deriving DecidableEq, Repr

/-- A time that starts now at a number of steps. -/
def Timer.start (steps : Nat) : Timer := { steps := steps, part := 0 }

/-! ## Link ports (11_link_ports, 10_incidents_and_notices) -/

/-- The receive state of a port (R182). -/
inductive RxState where
  | idle | receiving | discarding | answering
  deriving DecidableEq, Repr

/-- The statuses of an answer, in the order of R184's codes 0 to 17. -/
inductive Status where
  | ok | clamped | unknownRequest | badLength | notPermitted | unknownSlot | badIndex | duplicateTag | badValue
  | wrongState | mode | zoneWet | heldByOther | tooLate | locked | feedFailed | busy | notFound
  deriving DecidableEq, Repr

/-- An answer being sent: the code echo, the status and the body (R183). -/
structure Answer where
  code : Byte
  status : Status
  body : List Byte
  deriving DecidableEq, Repr

/-- One link port: its receive state, the answer it is sending while ANSWERING, its ten notice flags and its notice
mask, bit n for category n of R185 (R177, R178, R182). -/
structure LinkPort where
  rx : RxState
  answer : Option Answer
  flags : BitVec 10
  mask : BitVec 10
  deriving DecidableEq, Repr

/-- The ten notice categories, in the order of their bits (R177, R185). -/
inductive Notice where
  | incident | renewDue | leaseExpiring | budgetLapsed | freezeExpired | markLost | feedChanged | modeChanged
  | branchChanged | restarted
  deriving DecidableEq, Repr

/-! ## Branch Map (01_the_branch_map) -/

/-- Which masters may restore a branch (R3). -/
inductive Authority where
  | safetyOnly | safetyOrRack
  deriving DecidableEq, Repr

/-- How a branch's demand ages (R3). -/
inductive TtlPolicy where
  | refresh | fixed | none
  deriving DecidableEq, Repr

/-- A map entry (R3). It is valid exactly when it holds a slot tag. The TTL time is in steps of 100 ms. -/
structure MapEntry where
  slotTag : Option SlotTag
  autoAdmit : Bool
  authority : Authority
  gain : Nat
  primePosition : Nat
  ttlPolicy : TtlPolicy
  ttlTime : Nat
  deriving DecidableEq, Repr

/-- The entry of a branch that is not mapped: the defaults of R3. -/
def MapEntry.default : MapEntry :=
  { slotTag := Option.none, autoAdmit := false, authority := .safetyOnly, gain := 64, primePosition := 300,
    ttlPolicy := .refresh, ttlTime := 1200 }

/-! ## Branch Table (03_branch_lifecycle) -/

/-- The eleven branch states, in the order of R36. -/
inductive BranchState where
  | unmapped | vacant | priming | backoff | noflow | flowing | setback | pinned | isolating | isolated | isolateFault
  deriving DecidableEq, Repr

/-- A commanded shutoff or inlet (R36, R121). -/
inductive Valve where
  | opened | closed
  deriving DecidableEq, Repr

/-- The two steps of the closing sequence (R36, R157). -/
inductive SubPhase where
  | supplyClosing | returnClosing
  deriving DecidableEq, Repr

/-- Why a branch is isolated, in the order of R157's codes 1 to 6. -/
inductive IsolationReason where
  | hardImbalance | confirmedImbalance | zoneWet | escalation | panel | stored
  deriving DecidableEq, Repr

/-- A branch status record (R36). `timer` and `ttl` are remaining times. -/
structure Branch where
  state : BranchState
  attempts : Nat
  timer : Option Timer
  proof : Nat
  ttl : Option Timer
  pin : Option Nat
  target : Option Nat
  supply : Nat
  ret : Valve
  subPhase : Option SubPhase
  reason : Option IsolationReason
  isolationMark : Bool
  hot : Bool
  deriving DecidableEq, Repr

/-- The record every branch begins with at power-on (R61). R61 gives every field but the state, which it sets only when the
store load is complete: until then the state UNMAPPED is the model's choice (DESIGN CHOICE, notes/assumptions/8.md). -/
def Branch.initial : Branch :=
  { state := .unmapped, attempts := 0, timer := none, proof := 0, ttl := none, pin := none, target := none, supply := 0,
    ret := .closed, subPhase := none, reason := none, isolationMark := false, hot := false }

/-! ## Field Scanner (02_field_scanning) -/

/-- The link state of a module (R28). -/
inductive LinkState where
  | online | missing | stale
  deriving DecidableEq, Repr

/-- A branch's five measurement fields (R25). A temperature of `none` is FAULT. -/
structure Measurement where
  supplyFlow : Nat
  returnFlow : Nat
  temperature : Option Nat
  supplyFeedback : Nat
  returnFeedback : Feedback
  deriving DecidableEq, Repr

/-- A segment record of the measurement table (R25). -/
structure SegmentRecord where
  link : LinkState
  misses : Nat
  lastLevel : ZoneLevel
  deriving DecidableEq, Repr

/-- The head record of the measurement table (R25). -/
structure HeadRecord where
  pressureA : Nat
  pressureB : Nat
  inletA : Feedback
  inletB : Feedback
  link : LinkState
  misses : Nat
  deriving DecidableEq, Repr

/-- The command of an exchange, as it was sent (R20): supply position and return command of each position, or the two
inlet commands. -/
inductive ModuleCommand where
  | segment (first second third : Nat × Valve)
  | head (inletA inletB : Valve)
  deriving DecidableEq, Repr

/-- An exchange in progress: the module addressed, the command sent to it, and when it began (R19). -/
structure Exchange where
  module : ModuleId
  command : ModuleCommand
  began : Nat
  deriving DecidableEq, Repr

/-- The scanner: the last exchange number, the exchange in progress, the module the round serves next (17: the round has
served every module), the start of the round and the interval in force at that start (R19, R23, R24). -/
structure Scanner where
  number : BitVec 8
  exchange : Option Exchange
  next : Nat
  roundStart : Nat
  roundInterval : Nat
  deriving DecidableEq, Repr

/-- The cleared measurements of R32. -/
def Measurement.cleared : Measurement :=
  { supplyFlow := 0, returnFlow := 0, temperature := some 0, supplyFeedback := 0, returnFeedback := .closed }

/-- A segment's record after a reset (R32). -/
def SegmentRecord.cleared : SegmentRecord := { link := .missing, misses := 0, lastLevel := .dry }

/-- The head record after a reset (R32). -/
def HeadRecord.cleared : HeadRecord :=
  { pressureA := 0, pressureB := 0, inletA := .closed, inletB := .closed, link := .missing, misses := 0 }

/-! ## Plan Buffer, Cycle Timer and Allotment Engine (04_the_plan_and_the_control_cycle, 05_allotment_arithmetic) -/

/-- A plan entry: demand D, floor F, cap C and weight W (R63). -/
structure PlanEntry where
  demand : Nat
  floor : Nat
  cap : Nat
  weight : Nat
  deriving DecidableEq, Repr

/-- The default plan entry (R63). -/
def PlanEntry.default : PlanEntry := { demand := 0, floor := 100, cap := 2000, weight := 8 }

/-- Who can hold the freeze (R69). -/
inductive Holder where
  | rm | sp
  deriving DecidableEq, Repr

/-- The freeze record while the plan is frozen: the holder and the freeze age (R69). -/
structure Freeze where
  holder : Holder
  age : Timer
  deriving DecidableEq, Repr

/-- FREE or LOCKED: both the parameter CYCLE_MODE and the timing of the Cycle Timer (R74, R80). -/
inductive Timing where
  | free | locked
  deriving DecidableEq, Repr

/-- The Cycle Timer (R74). Moments are in ms of the part's clock. `further` holds the further cycles scheduled after the
last mark and not yet started (R77). `origin` is the completion of the last store load or warm reset, from which the
first cycle is measured (R75). -/
structure CycleTimer where
  timing : Timing
  lockIn : Nat
  reference : Option Nat
  interval : Option Nat
  deadline : Option Nat
  further : List Nat
  lastStart : Option Nat
  origin : Nat
  deriving DecidableEq, Repr

/-- The Cycle Timer after a reset that completes at `origin` (R82, R83). -/
def CycleTimer.restarted (origin : Nat) : CycleTimer :=
  { timing := .free, lockIn := 0, reference := none, interval := none, deadline := none, further := [],
    lastStart := none, origin := origin }

/-- The manifold modes (R165). -/
inductive Mode where
  | run | hold | safe | parking | parked
  deriving DecidableEq, Repr

/-- The case of stage 3 of a cycle, or floor mode (R99). -/
inductive Fit where
  | floorMode | unsqueezed | waterFill | breach
  deriving DecidableEq, Repr

/-- The budget fields of the cycle summary, absent together in floor mode (R99). -/
structure BudgetFields where
  inForce : Nat
  primingReserve : Nat
  pinnedConsumption : Nat
  available : Nat
  deriving DecidableEq, Repr

/-- The cycle summary (R99). Its breach flag is `fit = .breach`. -/
structure CycleSummary where
  cycleTime : Option Nat
  mode : Mode
  feed : Feed
  fit : Fit
  budget : Option BudgetFields
  allotting : Nat
  priming : Nat
  pinned : Nat
  demand : Nat
  floors : Nat
  targets : Nat
  passes : Nat
  hotBranches : Nat
  deriving DecidableEq, Repr

/-- The summary that holds no cycle (R103). -/
def CycleSummary.cleared (feed : Feed) : CycleSummary :=
  { cycleTime := none, mode := .run, feed := feed, fit := .floorMode, budget := none, allotting := 0, priming := 0,
    pinned := 0, demand := 0, floors := 0, targets := 0, passes := 0, hotBranches := 0 }

/-! ## Lease Unit (06_budget_leases) -/

/-- Where a lease that is not NONE stands in its life (R105). -/
inductive LeasePhase where
  | bound | renewDue | expiring | lapsed
  deriving DecidableEq, Repr

/-- A lease that is not NONE (R105). The duration and the marks are in steps of 100 ms. -/
structure Lease where
  phase : LeasePhase
  budget : Nat
  duration : Nat
  t1 : Nat
  t2 : Nat
  age : Timer
  deriving DecidableEq, Repr

/-- The result of a handover test: STARTED or the failing condition, in the order of R111's table. -/
inductive HandoverResult where
  | started | notActive | disabled | locked | switchInFlight | mode | standbyFailed | standbyLease
  deriving DecidableEq, Repr

/-- The handover record (R111). -/
structure Handover where
  feed : Feed
  uptime : Nat
  result : HandoverResult
  deriving DecidableEq, Repr

/-! ## Feed Controller (07_supply_feeds) -/

/-- A feed record (R121). `lowTimer` is the elapsed time of a running low-pressure timer. -/
structure FeedRecord where
  inlet : Valve
  failed : Bool
  lowTimer : Option Timer
  proof : Nat
  deriving DecidableEq, Repr

/-- The phase of a switch (R122). -/
inductive SwitchPhase where
  | opening | closingOld
  deriving DecidableEq, Repr

/-- Who asked for a switch (R122). -/
inductive Requester where
  | rm | ua | ub | handover
  deriving DecidableEq, Repr

/-- A switch in flight (R122). The window is its remaining time. -/
structure Switch where
  target : Feed
  origin : Feed
  phase : SwitchPhase
  window : Timer
  requester : Requester
  deriving DecidableEq, Repr

/-! ## Drip Monitor (08_drip_detection) -/

/-- The verdict on a branch (R137). -/
inductive SuspectLevel where
  | none | suspect | hard
  deriving DecidableEq, Repr

/-- An accumulator record (R137). -/
structure Accumulator where
  amount : Nat
  level : SuspectLevel
  lastImbalance : Int
  deriving DecidableEq, Repr

/-- A confirm timer: its remaining time, and whether it runs or is paused (R140). -/
structure ConfirmTimer where
  remaining : Timer
  running : Bool
  deriving DecidableEq, Repr

/-- What a confirm timer's expiry does (R140). -/
inductive ZonePolicy where
  | auto | report
  deriving DecidableEq, Repr

/-- A zone record (R140). -/
structure Zone where
  state : ZoneLevel
  rise : Nat
  dry : Nat
  confirm : Option ConfirmTimer
  policy : ZonePolicy
  deriving DecidableEq, Repr

/-- An accumulator record after power-on (R153). -/
def Accumulator.initial : Accumulator := { amount := 0, level := .none, lastImbalance := 0 }

/-- A zone record after power-on with the default policy (R153). -/
def Zone.initial : Zone := { state := .dry, rise := 0, dry := 0, confirm := Option.none, policy := .auto }

/-! ## Mode Controller (09_isolation_and_manifold_modes) -/

/-- A fault-hold cause (R163). -/
inductive FaultCause where
  | isolateFault (branch : BranchId)
  | bothFeedsFailed
  deriving DecidableEq, Repr

/-- The fault-hold record: the first cause, the uptime at which fault hold began, the count of causes (R163). -/
structure FaultHold where
  first : FaultCause
  began : Nat
  count : Nat
  deriving DecidableEq, Repr

/-- The park record: the window's remaining time, and bit s set when segment s is confirmed (R168). -/
structure Park where
  window : Timer
  confirmed : BitVec 16
  deriving DecidableEq, Repr

/-! ## Incident List (10_incidents_and_notices) -/

/-- The 22 kinds of incident, in the order of R173's table. -/
inductive Kind where
  | branchSuspect | branchIsolated | isolateFault | branchHot | primeExhausted | mapDuplicate | zoneDamp | zoneWet
  | zoneIsolated | segmentLost | feedFailover | switchFailed | inletStuck | leaseLapsed | headLost | bothFeedsFailed
  | budgetBreach | safeEntered | parkIncomplete | storeInvalid | storeFault | saveAborted
  deriving DecidableEq, Repr

/-- The subject of an incident (R172); SEGMENT_LOST carries its segment in the zone field. -/
inductive Subject where
  | nothing
  | branch (b : BranchId)
  | zone (z : SegId)
  | feed (f : Feed)
  deriving DecidableEq, Repr

/-- An incident record (R172). Times are uptimes in whole seconds. -/
structure Incident where
  sequence : Nat
  kind : Kind
  subject : Subject
  firstTime : Nat
  lastTime : Nat
  count : Nat
  detail : Option Int
  deriving DecidableEq, Repr

/-- The Incident List in the order of first detection, with its own two fields (R172). -/
structure IncidentList where
  records : List Incident
  next : Nat
  overflow : Nat
  deriving DecidableEq, Repr

/-! ## Store Controller (12_configuration_store_and_start_up) -/

/-- A running save: the image computed at its start, the page being written, and the attempts that this page has
failed (R193). -/
structure Save where
  image : List Byte
  page : Nat
  failures : Nat
  deriving DecidableEq, Repr

/-- An entry of the mark write queue: a branch and the mark value to be written for it (R194). -/
structure MarkEntry where
  branch : BranchId
  value : Bool
  deriving DecidableEq, Repr

/-- A mark write in progress: the branch and value being written, the attempts that have failed, and whether a restore or
an isolation has replaced the entry's value since it began (R194). -/
structure MarkWrite where
  branch : BranchId
  value : Bool
  failures : Nat
  replaced : Bool
  deriving DecidableEq, Repr

/-- The Store Controller's own state: the save, the mark write queue (head first), the mark write in progress, and the
remaining retry wait (R193, R194). -/
structure Store where
  save : Option Save
  queue : List MarkEntry
  write : Option MarkWrite
  retry : Option Timer
  deriving DecidableEq, Repr

/-- The Store Controller at power-on (R191). -/
def Store.initial : Store := { save := none, queue := [], write := none, retry := none }

/-! ## The tuning parameters (R186) -/

/-- The 30 tuning parameters in the numbering of R186, each in the unit R186 gives it. -/
structure Params where
  scanInterval : Nat
  proofFlow : Nat
  primeWindow : Nat
  retryLimit : Nat
  primeReserve : Nat
  cycleMode : Timing
  cyclePeriod : Nat
  markMultiplier : Nat
  freezeLimit : Nat
  deadband : Nat
  convergenceFast : Bool
  stepSlow : Nat
  stepFast : Nat
  leapThreshold : Nat
  leapLimit : Nat
  hotLimit : Nat
  autoHandover : Bool
  proofPressure : Nat
  failPressure : Nat
  failoverWindow : Nat
  switchWindow : Nat
  failoverEnable : Bool
  preferredFeed : Feed
  imbalanceTol : Nat
  dripThreshold : Nat
  dripDecay : Nat
  confirmWindow : Nat
  isolateWindow : Nat
  residualFlow : Nat
  parkWindow : Nat
  deriving DecidableEq, Repr

/-- The defaults of the 30 parameters (R24, R48, R71, R80, R101, R118, R134, R151, R170). -/
def Params.default : Params :=
  { scanInterval := 100, proofFlow := 50, primeWindow := 200, retryLimit := 4, primeReserve := 150, cycleMode := .free,
    cyclePeriod := 500, markMultiplier := 1, freezeLimit := 100, deadband := 5, convergenceFast := false, stepSlow := 20,
    stepFast := 60, leapThreshold := 300, leapLimit := 150, hotLimit := 600, autoHandover := true, proofPressure := 150,
    failPressure := 80, failoverWindow := 20, switchWindow := 150, failoverEnable := true, preferredFeed := .a,
    imbalanceTol := 20, dripThreshold := 600, dripDecay := 5, confirmWindow := 300, isolateWindow := 300,
    residualFlow := 10, parkWindow := 600 }

/-! ## The whole part -/

/-- The state of the MX48. -/
structure State where
  /-- The MODEL's own: the commands that wait, first in, first out. -/
  pending : List Instr
  /-- Milliseconds since power-on; uptime is its whole seconds (00_scope, Units). -/
  clock : Nat
  /-- The power-on load and the start steps of R192 are not complete yet (R184, R191). -/
  loading : Bool
  /-- The RESET_N line is low (R195). -/
  resetLow : Bool
  /-- A RESTART has been answered OK and its reset has not been taken yet (R195). -/
  restartDue : Bool
  /-- The reset being taken has aborted a save (R195). -/
  saveAborted : Bool
  ports : Vector LinkPort 4
  map : Vector MapEntry 48
  branches : Vector Branch 48
  scanner : Scanner
  measured : Vector Measurement 48
  segments : Vector SegmentRecord 16
  head : HeadRecord
  planPending : Vector PlanEntry 48
  planActive : Vector PlanEntry 48
  freeze : Option Freeze
  timer : CycleTimer
  summary : CycleSummary
  leases : Vector (Option Lease) 2
  handover : Option Handover
  feeds : Vector FeedRecord 2
  activeFeed : Feed
  switch : Option Switch
  startup : Option Timer
  bothOpen : Bool
  feedLock : Bool
  drips : Vector Accumulator 48
  zones : Vector Zone 16
  mode : Mode
  faultHold : Option FaultHold
  park : Option Park
  incidents : IncidentList
  store : Store
  params : Params
  /-- The EEPROM: the bytes that differ from the erased byte, addresses strictly rising (R190). -/
  eeprom : List Host.Cell
  /-- The stored image was left by a save that ended before its completion, and no save has been completed since: its CRC
  does not match it (R193; notes/assumptions/22.md). -/
  imageTorn : Bool
  /-- The MODEL's own: how many choices among events due at one moment have been drawn (notes/assumptions/6.md). -/
  draws : Nat
  deriving DecidableEq, Repr

/-- Power-on reset with the given EEPROM contents and RESET_N level, before the store load is complete (R32, R61, R82,
R103, R119, R135, R153, R171, R180 to R182, R191). `torn` says that the stored image is one that R193 leaves with a CRC that
does not match it. The map, the parameters, the branch states, the inlets and the active feed are set by the load; until
then they hold the values notes/assumptions/8.md names. -/
def State.poweredOn (eeprom : List Host.Cell) (torn resetLow : Bool) : State :=
  { pending := [], clock := 0, loading := true, resetLow := resetLow, restartDue := false, saveAborted := false,
    ports := Vector.replicate 4 { rx := .idle, answer := none, flags := 0, mask := BitVec.allOnes 10 },
    map := Vector.replicate 48 MapEntry.default,
    branches := Vector.replicate 48 Branch.initial,
    scanner := { number := 0, exchange := none, next := 17, roundStart := 0, roundInterval := 100 },
    measured := Vector.replicate 48 Measurement.cleared,
    segments := Vector.replicate 16 SegmentRecord.cleared,
    head := HeadRecord.cleared,
    planPending := Vector.replicate 48 PlanEntry.default,
    planActive := Vector.replicate 48 PlanEntry.default,
    freeze := none,
    timer := CycleTimer.restarted 0,
    summary := CycleSummary.cleared .a,
    leases := Vector.replicate 2 none,
    handover := none,
    feeds := Vector.replicate 2 { inlet := .closed, failed := false, lowTimer := none, proof := 0 } |>.set 0
      { inlet := .opened, failed := false, lowTimer := none, proof := 0 },
    activeFeed := .a,
    switch := none, startup := none, bothOpen := false, feedLock := false,
    drips := Vector.replicate 48 Accumulator.initial,
    zones := Vector.replicate 16 Zone.initial,
    mode := .run, faultHold := none, park := none,
    incidents := { records := [], next := 0, overflow := 0 },
    store := Store.initial,
    params := Params.default,
    eeprom := eeprom,
    imageTorn := torn,
    draws := 0 }

/-- The machine right after power-on reset, with an erased EEPROM and RESET_N high (R191). -/
def State.reset : State := State.poweredOn [] false false

/-- A fault that stops the machine. The manual names none: whatever reaches the MX48 is answered, refused with a status,
discarded or reported as an incident, and the part goes on. No command answers with a fault. -/
inductive Fault where
  deriving DecidableEq, Repr

/-- Why a command has no meaning in the model. -/
inductive Refusal where
  /-- Raised by exec's arm of a command that has no meaning yet; safe, since nothing can be proved of a next state. No
  arm raises it now. -/
  | notModelled (mnemonic : String)
  deriving DecidableEq, Repr

end Sys2Proof.Machine
end

