-- ==== Sys2Proof/Machine/Ops.lean ====
section
/-! DEFINITION. The named operations over the part's tables and records: reading and writing one record, the grouping of
branches into zones (R1, R2), the passing of time, and the bytes of the EEPROM. -/

namespace Sys2Proof

/-- The place of a port in State's table. -/
def Port.idx : Port → Fin 4
  | .rm => 0
  | .ua => 1
  | .ub => 2
  | .sp => 3

/-- The place of a feed in State's tables; also the feed's code (R185). -/
def Feed.idx : Feed → Fin 2
  | .a => 0
  | .b => 1

/-- The other feed: the standby feed where this one is active. -/
def Feed.other : Feed → Feed
  | .a => .b
  | .b => .a

/-- The port of the unit controller that supplies a feed (R106). -/
def Feed.port : Feed → Port
  | .a => .ua
  | .b => .ub

/-- The segment of a branch, and the drip zone with the same number (R1). -/
def zoneOf (b : BranchId) : SegId := ⟨b.val / 3, by omega⟩

/-- The branch in a position (0, 1 or 2) of a segment (R1). -/
def branchAt (z : SegId) (position : Fin 3) : BranchId := ⟨3 * z.val + position.val, by omega⟩

/-- The three branches of a zone in ascending index (R2). -/
def zoneBranches (z : SegId) : List BranchId := [branchAt z 0, branchAt z 1, branchAt z 2]

/-- The siblings of a branch in ascending index (R2). -/
def siblings (b : BranchId) : List BranchId := (zoneBranches (zoneOf b)).filter (· ≠ b)

end Sys2Proof

namespace Sys2Proof.Machine

open Sys2Proof

/-! ## Tables -/

/-- A table with the record at `i` replaced. -/
def put {α : Type} {n : Nat} (v : Vector α n) (i : Fin n) (x : α) : Vector α n := v.set i.val x i.isLt

/-- A table with every record changed by a function of its index. -/
def mapTable {α : Type} {n : Nat} (f : Fin n → α → α) (v : Vector α n) : Vector α n :=
  Vector.ofFn fun i => f i (v.get i)

/-- The branches in ascending index. -/
def allBranches : List BranchId := List.finRange 48

/-- The segments, and the zones, in ascending index. -/
def allSegments : List SegId := List.finRange 16

def State.port (s : State) (p : Port) : LinkPort := s.ports.get p.idx
def State.setPort (s : State) (p : Port) (x : LinkPort) : State := { s with ports := put s.ports p.idx x }
def State.entry (s : State) (b : BranchId) : MapEntry := s.map.get b
def State.setEntry (s : State) (b : BranchId) (x : MapEntry) : State := { s with map := put s.map b x }
def State.branch (s : State) (b : BranchId) : Branch := s.branches.get b
def State.setBranch (s : State) (b : BranchId) (x : Branch) : State := { s with branches := put s.branches b x }
def State.measure (s : State) (b : BranchId) : Measurement := s.measured.get b
def State.setMeasure (s : State) (b : BranchId) (x : Measurement) : State := { s with measured := put s.measured b x }
def State.segment (s : State) (z : SegId) : SegmentRecord := s.segments.get z
def State.setSegment (s : State) (z : SegId) (x : SegmentRecord) : State := { s with segments := put s.segments z x }
def State.pendingPlan (s : State) (b : BranchId) : PlanEntry := s.planPending.get b
def State.activePlan (s : State) (b : BranchId) : PlanEntry := s.planActive.get b
def State.setPendingPlan (s : State) (b : BranchId) (x : PlanEntry) : State :=
  { s with planPending := put s.planPending b x }
def State.lease (s : State) (f : Feed) : Option Lease := s.leases.get f.idx
def State.setLease (s : State) (f : Feed) (x : Option Lease) : State := { s with leases := put s.leases f.idx x }
def State.feed (s : State) (f : Feed) : FeedRecord := s.feeds.get f.idx
def State.setFeed (s : State) (f : Feed) (x : FeedRecord) : State := { s with feeds := put s.feeds f.idx x }
def State.drip (s : State) (b : BranchId) : Accumulator := s.drips.get b
def State.setDrip (s : State) (b : BranchId) (x : Accumulator) : State := { s with drips := put s.drips b x }
def State.zone (s : State) (z : SegId) : Zone := s.zones.get z
def State.setZone (s : State) (z : SegId) (x : Zone) : State := { s with zones := put s.zones z x }

/-- Command one inlet (R121). -/
def State.setInlet (s : State) (f : Feed) (v : Valve) : State := s.setFeed f { s.feed f with inlet := v }

/-- The latest reported pressure of a feed (R121). -/
def State.pressure (s : State) (f : Feed) : Nat :=
  match f with
  | .a => s.head.pressureA
  | .b => s.head.pressureB

/-- The latest reported feedback of a feed's inlet (R121). -/
def State.inletFeedback (s : State) (f : Feed) : Feedback :=
  match f with
  | .a => s.head.inletA
  | .b => s.head.inletB

/-- Both plan copies of a branch at their defaults (R57). -/
def State.planToDefaults (s : State) (b : BranchId) : State :=
  { s with planPending := put s.planPending b PlanEntry.default, planActive := put s.planActive b PlanEntry.default }

/-! ## Kinds of branch state -/

/-- The three isolation states (R59). -/
def BranchState.isIsolation : BranchState → Bool
  | .isolating | .isolated | .isolateFault => true
  | _ => false

/-- The accumulating states, in which a branch is exposed (R137). -/
def BranchState.isExposed : BranchState → Bool
  | .priming | .flowing | .setback | .pinned => true
  | _ => false

/-- The states of an allotting branch (R84). -/
def BranchState.isAllotting : BranchState → Bool
  | .flowing | .setback => true
  | _ => false

/-- The states RELEASE and PARK take to VACANT (R56, R58). -/
def BranchState.isAdmitted : BranchState → Bool
  | .priming | .backoff | .noflow | .flowing | .setback | .pinned => true
  | _ => false

/-! ## Saturation -/

/-- A number brought to the nearest end of its range (00_scope, Saturation). -/
def saturate (lo hi : Nat) (z : Int) : Nat := if z < lo then lo else if hi < z then hi else z.toNat

/-- Whether saturation changes the number. -/
def outOfRange (lo hi : Nat) (z : Int) : Bool := decide (z < lo ∨ hi < z)

/-! ## Time -/

/-- Uptime in whole seconds (00_scope, Units). -/
def State.uptime (s : State) : Nat :=
  let seconds := s.clock / 1000
  if seconds < 4294967296 then seconds else (Config.uptimePastRange seconds).toNat

/-- RESET_N is low and the warm reset has been taken: nothing else is (R195). -/
def State.held (s : State) : Bool := s.resetLow && !s.loading

/-- Neither loading nor held: reports, marks and expiries are taken (R191, R195). -/
def State.running (s : State) : Bool := !s.loading && !s.resetLow

/-- A remaining time after `ms` milliseconds; it stays at 0. -/
def Timer.down (ms : Nat) (t : Timer) : Timer :=
  if (t.part + ms) / 100 < t.steps then { steps := t.steps - (t.part + ms) / 100, part := (t.part + ms) % 100 }
  else Timer.start 0

/-- An age after `ms` milliseconds. -/
def Timer.up (ms : Nat) (t : Timer) : Timer := { steps := t.steps + (t.part + ms) / 100, part := (t.part + ms) % 100 }

/-- An age after `ms` milliseconds; it stops at `limit`. -/
def Timer.upTo (ms limit : Nat) (t : Timer) : Timer :=
  if (t.up ms).steps < limit then t.up ms else Timer.start (max t.steps limit)

/-- A remaining time is present and has run out. -/
def isOver (t : Option Timer) : Bool :=
  match t with
  | some t => decide (t.steps = 0)
  | none => false

/-- A branch's own timer and, outside HOLD, its TTL (R36, R52). -/
def Branch.elapse (ms : Nat) (ttlRuns : Bool) (b : Branch) : Branch :=
  { b with timer := b.timer.map (Timer.down ms), ttl := if ttlRuns then b.ttl.map (Timer.down ms) else b.ttl }

/-- A running confirm timer counts down, a paused one does not (R145, R150). -/
def Zone.elapse (ms : Nat) (z : Zone) : Zone :=
  { z with confirm := z.confirm.map fun c => if c.running then { c with remaining := c.remaining.down ms } else c }

/-- A lease's age, which stops while the lease is LAPSED (R109). -/
def Lease.elapse (ms : Nat) (l : Lease) : Lease := { l with age := if l.phase = .lapsed then l.age else l.age.up ms }

/-- A feed's running low-pressure timer (R129). -/
def FeedRecord.elapse (ms limit : Nat) (f : FeedRecord) : FeedRecord :=
  { f with lowTimer := f.lowTimer.map (Timer.upTo ms limit) }

/-- `ms` milliseconds pass on the clock and in every timer, window and age of the part, each in steps of 100 ms from its own
start. -/
def State.passTime (s : State) (ms : Nat) : State :=
  { s with
    clock := s.clock + ms,
    branches := mapTable (fun _ => Branch.elapse ms (s.mode != .hold)) s.branches,
    freeze := s.freeze.map fun f => { f with age := f.age.upTo ms s.params.freezeLimit },
    leases := mapTable (fun _ l => l.map (Lease.elapse ms)) s.leases,
    feeds := mapTable (fun _ => FeedRecord.elapse ms s.params.failoverWindow) s.feeds,
    switch := s.switch.map fun w => { w with window := w.window.down ms },
    startup := s.startup.map (Timer.down ms),
    zones := mapTable (fun _ => Zone.elapse ms) s.zones,
    park := s.park.map fun p => { p with window := p.window.down ms },
    store := { s.store with retry := s.store.retry.map (Timer.down ms) } }

/-! ## The EEPROM (R190) -/

/-- The byte at an address; what nothing has written reads as the erased byte. -/
def readByte : List Host.Cell → Nat → Byte
  | [], _ => Config.erasedByte
  | (a, v) :: rest, x => if a = x then v else readByte rest x

/-- Write one byte, keeping the canonical form. -/
def writeByte : List Host.Cell → Nat → Byte → List Host.Cell
  | [], x, v => if v = Config.erasedByte then [] else [(x, v)]
  | (a, w) :: rest, x, v =>
    if x < a then (if v = Config.erasedByte then (a, w) :: rest else (x, v) :: (a, w) :: rest)
    else if x = a then (if v = Config.erasedByte then rest else (x, v) :: rest)
    else (a, w) :: writeByte rest x v

/-- Write consecutive bytes from an address. -/
def writeBytes (mem : List Host.Cell) (base : Nat) : List Byte → List Host.Cell
  | [] => mem
  | v :: rest => writeBytes (writeByte mem base v) (base + 1) rest

/-- Read `n` consecutive bytes from an address. -/
def readBytes (mem : List Host.Cell) (base n : Nat) : List Byte := (List.range n).map fun i => readByte mem (base + i)

/-- The canonical form: addresses strictly rising and inside the 8 KiB, no byte equal to the erased byte. -/
def memoryWf : List Host.Cell → Bool
  | [] => true
  | [(a, v)] => decide (a < Config.storeBytes) && v != Config.erasedByte
  | (a, v) :: (b, w) :: rest => decide (a < b) && v != Config.erasedByte && memoryWf ((b, w) :: rest)

/-- The canonical form of the state's EEPROM. -/
def Memory.wf (s : State) : Bool := memoryWf s.eeprom

end Sys2Proof.Machine
end

