-- ==== Sys2Proof/Machine/Flags.lean ====
section
/-! DEFINITION. The part's flags: the notice flags and attention lines (R177 to R179), and the Incident List, whose new
records set INCIDENT (R172 to R174). -/

namespace Sys2Proof.Machine

open Sys2Proof

/-- The bit of a notice category (R185). -/
def Notice.bit : Notice → Nat
  | .incident => 0
  | .renewDue => 1
  | .leaseExpiring => 2
  | .budgetLapsed => 3
  | .freezeExpired => 4
  | .markLost => 5
  | .feedChanged => 6
  | .modeChanged => 7
  | .branchChanged => 8
  | .restarted => 9

/-- A port with one category's flag set; setting a set flag leaves it set (R177). -/
def LinkPort.flag (c : Notice) (p : LinkPort) : LinkPort :=
  { p with flags := p.flags ||| BitVec.twoPow 10 c.bit }

/-- Set a category on one port. -/
def notify (p : Port) (c : Notice) (s : State) : State := s.setPort p ((s.port p).flag c)

/-- Set a category on all four ports. -/
def notifyAll (c : Notice) (s : State) : State := { s with ports := mapTable (fun _ => LinkPort.flag c) s.ports }

/-- The attention line of a port: asserted while a category is both set and enabled, and released until the power-on load
is complete (R178, R181). -/
def attention (s : State) (p : Port) : Bool := !s.loading && ((s.port p).flags &&& (s.port p).mask) != 0

/-! ## The Incident List -/

/-- A detail saturated into -32768 to 32767 (R172). -/
def detailRange (z : Int) : Int := max (-32768) (min z 32767)

/-- Same kind and subject (R172). -/
def Incident.matches (kind : Kind) (subject : Subject) (r : Incident) : Bool :=
  decide (r.kind = kind ∧ r.subject = subject)

/-- Case 1 of R174: a report merged into a record. -/
def Incident.merge (now : Nat) (detail : Option Int) (r : Incident) : Incident :=
  { r with count := min (r.count + 1) 65535, lastTime := now, detail := detail }

/-- The first sequence number from `n` on that no record carries; at most `fuel` numbers are passed over (R174). -/
def freshSequence (used : List Nat) : Nat → Nat → Nat
  | 0, n => n
  | fuel + 1, n => if n ∈ used then freshSequence used fuel ((n + 1) % 65536) else n

/-- Take a report at uptime `now`: merged, appended or counted as overflow, and whether it made a new record (R174). -/
def IncidentList.take (now : Nat) (kind : Kind) (subject : Subject) (detail : Option Int) (l : IncidentList) :
    IncidentList × Bool :=
  if l.records.any (Incident.matches kind subject) then
    ({ l with records := l.records.map fun r => if r.matches kind subject then r.merge now detail else r }, false)
  else if l.records.length < 32 then
    let n := freshSequence (l.records.map (·.sequence)) 32 l.next
    ({ l with
       records := l.records ++
        [{ sequence := n, kind := kind, subject := subject, firstTime := now, lastTime := now, count := 1, detail := detail }],
       next := (n + 1) % 65536 }, true)
  else ({ l with overflow := min (l.overflow + 1) 255 }, false)

/-- A block reports an incident (R174); a new record sets INCIDENT on all ports. -/
def report (kind : Kind) (subject : Subject) (detail : Option Int) (s : State) : State :=
  let (l, isNew) := s.incidents.take s.uptime kind subject (detail.map detailRange)
  if isNew then notifyAll .incident { s with incidents := l } else { s with incidents := l }

/-- Remove the record with a sequence number; an emptied list has its overflow count cleared (R175). -/
def IncidentList.acknowledge (sequence : Nat) (l : IncidentList) : IncidentList :=
  let rest := l.records.filter (·.sequence ≠ sequence)
  { l with records := rest, overflow := if rest = [] then 0 else l.overflow }

end Sys2Proof.Machine
end

