-- ==== Sys2Proof/Machine/Operands.lean ====
section
/-! DEFINITION. How a request is taken: the checks of R184 in their order, the addressing forms (R6, R14), and the answer
that is sent from the event's outcome (R182, R183). -/

namespace Sys2Proof.Machine

open Sys2Proof

/-- The outcome of a request: a status and, where it is accepted, the answer's body. -/
structure Reply where
  status : Status
  body : List Byte
  deriving DecidableEq, Repr

/-- The code of a status (R184). -/
def Status.code : Status → Nat
  | .ok => 0
  | .clamped => 1
  | .unknownRequest => 2
  | .badLength => 3
  | .notPermitted => 4
  | .unknownSlot => 5
  | .badIndex => 6
  | .duplicateTag => 7
  | .badValue => 8
  | .wrongState => 9
  | .mode => 10
  | .zoneWet => 11
  | .heldByOther => 12
  | .tooLate => 13
  | .locked => 14
  | .feedFailed => 15
  | .busy => 16
  | .notFound => 17

/-- The frame of an answer: sync 0x5A, the length, the code echo, the status, the body and the CRC (R183). -/
def Answer.frame (a : Answer) : List Byte := frameOf 0x5A (a.code :: byte1 a.status.code ++ a.body)

/-- OK or CLAMPED: the acceptances (R184). -/
def Status.accepts : Status → Bool
  | .ok | .clamped => true
  | _ => false

/-- A refusal, or an acceptance without a body. -/
def Reply.plain (st : Status) : Reply := { status := st, body := [] }

/-- CLAMPED where a value was saturated, OK otherwise (00_scope, Saturation). -/
def Reply.written (clamped : Bool) : Reply := Reply.plain (if clamped then .clamped else .ok)

/-- The bytes a port sends: the frame of its answer while it is ANSWERING (R182, R183). -/
def State.sending (s : State) (p : Port) : Option (List Byte) := (s.port p).answer.map Answer.frame

/-- A good frame has ended on the port: the answer is sent from here on (R182). -/
def State.answering (s : State) (p : Port) (code : Byte) (r : Reply) : State :=
  s.setPort p { s.port p with rx := .answering, answer := some { code := code, status := r.status, body := r.body } }

/-- A port takes a frame that ends now: one that began in IDLE or RECEIVING, with RESET_N not held (R182, R195). -/
def State.takesFrame (s : State) (p : Port) : Bool :=
  !s.held && (decide ((s.port p).rx = .idle) || decide ((s.port p).rx = .receiving))

/-- The handler of an owning rule: it decides the reply and the state after. -/
abbrev Handler := State → Reply × State

/-- A refusal leaves the state it addresses as it was (R184). -/
def refuse (st : Status) : Handler := fun s => (Reply.plain st, s)

/-- A request of R185's catalogue: BUSY during the load, then the length, the port permission, and the addressing and
owning checks in `h` (R184). A frame the port cannot take has no effect (R182). -/
def request (p : Port) (code : Byte) (lengths : List Nat) (allowed : List Port) (body : List Byte) (h : Handler)
    (s : State) : Host.Outcome State Fault Refusal :=
  .next <|
    if !s.takesFrame p then s
    else if s.loading then s.answering p code (Reply.plain .busy)
    else if body.length ∉ lengths then s.answering p code (Reply.plain .badLength)
    else if p ∉ allowed then s.answering p code (Reply.plain .notPermitted)
    else (h s).2.answering p code (h s).1

/-- All four ports. -/
def anyPort : List Port := [.rm, .ua, .ub, .sp]

/-- R6: the branch whose valid entry carries a tag. -/
def findTag (s : State) (tag : Nat) : Option BranchId :=
  allBranches.find? fun b =>
    match (s.entry b).slotTag with
    | some t => t.val == tag
    | none => false

/-- Addressing by slot tag (R6). -/
def bySlotTag (tag : Nat) (h : BranchId → Handler) : Handler := fun s =>
  match findTag s tag with
  | some b => h b s
  | none => refuse .unknownSlot s

/-- Addressing by branch index (R14). -/
def byBranch (n : Nat) (h : BranchId → Handler) : Handler := fun s =>
  if hn : n < 48 then h ⟨n, hn⟩ s else refuse .badIndex s

/-- Addressing by zone or segment index (R14). -/
def byZone (n : Nat) (h : SegId → Handler) : Handler := fun s =>
  if hn : n < 16 then h ⟨n, hn⟩ s else refuse .badIndex s

/-- The addressing form of a read: 0 slot tag, 1 branch index (R14, R184). -/
def byForm (form n : Nat) (h : BranchId → Handler) : Handler := fun s =>
  if form = 0 then bySlotTag n h s
  else if form = 1 then byBranch n h s
  else refuse .badValue s

/-- A feed code (R185). -/
def feedOfCode (n : Nat) : Option Feed :=
  if n = 0 then some .a else if n = 1 then some .b else none

/-- A no / off, yes / on code (R185). -/
def boolOfCode (n : Nat) : Option Bool :=
  if n = 0 then some false else if n = 1 then some true else none

/-- A restore authority code (R185). -/
def authorityOfCode (n : Nat) : Option Authority :=
  if n = 0 then some .safetyOnly else if n = 1 then some .safetyOrRack else none

/-- A TTL policy code (R185). -/
def ttlPolicyOfCode (n : Nat) : Option TtlPolicy :=
  if n = 0 then some .refresh else if n = 1 then some .fixed else if n = 2 then some .none else Option.none

/-- A zone policy code (R185). -/
def zonePolicyOfCode (n : Nat) : Option ZonePolicy :=
  if n = 0 then some .auto else if n = 1 then some .report else none

/-- A slot tag of a body byte (R9). -/
def slotTagOf (n : Nat) : Option SlotTag := if h : n < 128 then some ⟨n, h⟩ else none

end Sys2Proof.Machine
end

