-- ==== Sys2Proof/Machine/Passing.lean ====
section
/-! DEFINITION. The passing of time: the marks of the leases, which fall as their ages reach them (R105, R109 to R112), and how
an event is taken after a time has passed. -/

namespace Sys2Proof.Machine

open Sys2Proof

/-! ## What the marks of a lease do -/

/-- A switch begins in OPENING; it ends a start-up window and a both-open condition (R125, R131). -/
def beginSwitch (target : Feed) (requester : Requester) (s : State) : State :=
  let t := s.setFeed target { s.feed target with inlet := .opened, proof := 0 }
  { t with
    switch := some { target := target, origin := s.activeFeed, phase := .opening, window := Timer.start s.params.switchWindow,
                     requester := requester },
    startup := none, bothOpen := false }

/-- A lease moved on to its next phase. -/
def leasePhase (f : Feed) (phase : LeasePhase) (s : State) : State :=
  s.setLease f ((s.lease f).map fun l => { l with phase := phase })

/-- A lease fresh enough to be handed over to: BOUND or RENEW_DUE (R111, condition 7). -/
def standbyFresh (s : State) (f : Feed) : Bool :=
  match s.lease f with
  | some l => decide (l.phase = .bound ∨ l.phase = .renewDue)
  | none => false

/-- The handover test for the lease of `f`: STARTED, or the first condition that fails (R111). -/
def handoverTest (f : Feed) (s : State) : HandoverResult :=
  if s.activeFeed ≠ f then .notActive
  else if s.params.autoHandover = false then .disabled
  else if s.feedLock then .locked
  else if s.switch.isSome then .switchInFlight
  else if s.mode = .safe then .mode
  else if (s.feed f.other).failed then .standbyFailed
  else if standbyFresh s f.other = false then .standbyLease
  else .started

/-- The handover test made: its record, and the switch where it passes (R111). -/
def makeHandoverTest (f : Feed) (s : State) : State :=
  let r := handoverTest f s
  let t := { s with handover := some { feed := f, uptime := s.uptime, result := r } }
  if r = .started then beginSwitch f.other .handover t else t

/-- A lease reaches t1 (R109). -/
def reachT1 (f : Feed) (s : State) : State := notify f.port .renewDue (leasePhase f .renewDue s)

/-- A lease reaches t2 (R110). -/
def reachT2 (f : Feed) (s : State) : State :=
  makeHandoverTest f (notifyAll .leaseExpiring (leasePhase f .expiring s))

/-- The budget of a feed's lease, 0 for NONE. -/
def leaseBudget (s : State) (f : Feed) : Nat := ((s.lease f).map (·.budget)).getD 0

/-- A lease reaches its duration (R112). -/
def lapse (f : Feed) (s : State) : State :=
  let t := leasePhase f .lapsed s
  if s.activeFeed = f then
    notifyAll .budgetLapsed (report .leaseLapsed (.feed f) (some (min (leaseBudget s f) 32767)) t)
  else t

/-! ## When the marks fall -/

/-- The age at which the next mark of a lease falls (R105, R109). -/
def Lease.mark (l : Lease) : Option Nat :=
  match l.phase with
  | .bound => some l.t1
  | .renewDue => some l.t2
  | .expiring => some l.duration
  | .lapsed => none

/-- The age of a lease has reached its next mark. -/
def Lease.markReached (l : Lease) : Bool :=
  match l.mark with
  | some m => decide (m ≤ l.age.steps)
  | none => false

/-- The time in ms until the age of a lease reaches its next mark. -/
def Lease.untilMark (l : Lease) : Option Nat := l.mark.map fun m => (m - l.age.steps) * 100 - l.age.part

/-- The time in ms until the next mark of either lease. -/
def nextLeaseMark (s : State) : Option Nat :=
  match (s.lease .a).bind Lease.untilMark, (s.lease .b).bind Lease.untilMark with
  | some x, some y => some (min x y)
  | some x, none => some x
  | none, y => y

/-- The age of the lease of a feed has reached its next mark. -/
def leaseMarkDue (s : State) (f : Feed) : Bool :=
  match s.lease f with
  | some l => l.markReached
  | none => false

/-- What the mark that a lease in a phase has reached does (R109, R110, R112). -/
def reachMark (f : Feed) : LeasePhase → State → State
  | .bound => reachT1 f
  | .renewDue => reachT2 f
  | .expiring => lapse f
  | .lapsed => id

/-- The mark of a feed's lease is taken where its age has reached it (R109, R110, R112). -/
def takeLeaseMark (f : Feed) (s : State) : State :=
  match s.lease f with
  | some l => if l.markReached then reachMark f l.phase s else s
  | none => s

/-- The marks that the two leases have reached are taken; where both have reached one, which comes first is a free value
(notes/assumptions/6.md). -/
def takeLeaseMarks (s : State) : State :=
  if leaseMarkDue s .a && leaseMarkDue s .b then
    let t := { s with draws := s.draws + 1 }
    if Config.takenFirst s.draws % 2 = 0 then takeLeaseMark .b (takeLeaseMark .a t)
    else takeLeaseMark .a (takeLeaseMark .b t)
  else takeLeaseMark .b (takeLeaseMark .a s)

/-- `ms` milliseconds pass, and every mark of a lease that falls before their end is taken at its own moment. Two leases
have at most six marks before them, so `n` is 6 at the start and never used up. -/
def passing : Nat → Nat → State → State
  | 0, ms, s => s.passTime ms
  | n + 1, ms, s =>
    match nextLeaseMark s with
    | some d => if d < ms then passing n (ms - d) (takeLeaseMarks (s.passTime d)) else s.passTime ms
    | none => s.passTime ms

/-- `ms` milliseconds pass, without the marks that fall at their very end. During the power-on load and while RESET_N is
held low only the clock moves (R195). -/
def State.elapseBefore (s : State) (ms : Nat) : State :=
  if s.running then passing 6 ms s else { s with clock := s.clock + ms }

/-- `ms` milliseconds pass, with every mark of a lease that falls in them, so that no lease is left in a state that its age
has outgrown (R105). -/
def State.elapse (s : State) (ms : Nat) : State :=
  if s.running then takeLeaseMarks (s.elapseBefore ms) else s.elapseBefore ms

/-! ## Taking an event -/

/-- An event of the field side, of a mark input or of a timer: `after` ms pass, then it is taken, unless the power-on
load runs or RESET_N is held low (R191, R195). -/
def event (after : Nat) (f : State → State) (s : State) : Host.Outcome State Fault Refusal :=
  .next (let t := s.elapse after; if t.running then f t else t)

/-- The mark of a feed's lease that falls at the end of `after` ms, taken before another one that falls then too. -/
def leaseEvent (after : Nat) (f : State → State) (s : State) : Host.Outcome State Fault Refusal :=
  .next (let t := s.elapseBefore after; if t.running then takeLeaseMarks (f t) else t)

/-- An event on the line of a link port: taken during the power-on load too, when the ports answer BUSY (R184), and not
while RESET_N is held low (R195). -/
def lineEvent (after : Nat) (f : State → State) (s : State) : Host.Outcome State Fault Refusal :=
  .next (let t := s.elapse after; if t.held then t else f t)

end Sys2Proof.Machine
end

