-- ==== Sys2Proof/Machine/Branches.lean ====
section
/-! DEFINITION. The Branch Map and the Branch Table: the shared operations that take a branch from one state to another
(R36 to R60), and the commands of the map and of the lifecycle. -/

namespace Sys2Proof.Machine

open Sys2Proof

/-! ## Entering a state -/

/-- A record at rest in VACANT, UNMAPPED, BACKOFF or NOFLOW: valves closed, and only the fields R36 gives those states. The
isolation mark is not the lifecycle's and is kept. -/
def Branch.atRest (st : BranchState) (attempts : Nat) (timer : Option Timer) (x : Branch) : Branch :=
  { state := st, attempts := attempts, timer := timer, proof := 0, ttl := none, pin := none, target := none, supply := 0,
    ret := .closed, subPhase := none, reason := none, isolationMark := x.isolationMark, hot := false }

/-- The record on entry to PRIMING (R42). -/
def Branch.toPriming (e : MapEntry) (window attempts : Nat) (x : Branch) : Branch :=
  { state := .priming, attempts := attempts, timer := some (Timer.start window), proof := 0, ttl := none, pin := none,
    target := none, supply := e.primePosition, ret := .opened, subPhase := none, reason := none, isolationMark := x.isolationMark,
    hot := false }

/-- The TTL a branch starts on entry to FLOWING (R50). -/
def MapEntry.startTtl (e : MapEntry) : Option Timer :=
  match e.ttlPolicy with
  | .refresh | .fixed => some (Timer.start e.ttlTime)
  | .none => none

/-- The record on entry to FLOWING from PRIMING (R44) or PINNED (R55), with the allotment position the event gives. -/
def Branch.toFlowing (e : MapEntry) (position : Nat) (x : Branch) : Branch :=
  { state := .flowing, attempts := 0, timer := none, proof := 0, ttl := e.startTtl, pin := none, target := none,
    supply := position, ret := .opened, subPhase := none, reason := none, isolationMark := x.isolationMark, hot := false }

/-- The record on the return from SETBACK to FLOWING: position, target and hot are carried over (R37, R51). -/
def Branch.backToFlowing (e : MapEntry) (x : Branch) : Branch := { x with state := .flowing, ttl := e.startTtl }

/-- The record on entry to SETBACK (R52). -/
def Branch.toSetback (x : Branch) : Branch := { x with state := .setback, ttl := none }

/-- The record on entry to PINNED (R54). -/
def Branch.toPinned (position : Nat) (x : Branch) : Branch :=
  { state := .pinned, attempts := 0, timer := none, proof := 0, ttl := none, pin := some position, target := none,
    supply := position, ret := .opened, subPhase := none, reason := none, isolationMark := x.isolationMark, hot := false }

/-- A change of a branch's state: the new record, and BRANCH_CHANGED on all ports (R37, R39). -/
def enter (b : BranchId) (x : Branch) (s : State) : State := notifyAll .branchChanged (s.setBranch b x)

/-- Entry to PRIMING with an attempt count (R42). -/
def enterPriming (b : BranchId) (attempts : Nat) (s : State) : State :=
  enter b ((s.branch b).toPriming (s.entry b) s.params.primeWindow attempts) s

/-- RELEASE's entry actions, which PARK shares (R56 to R58). -/
def releaseBranch (b : BranchId) (s : State) : State :=
  enter b ((s.branch b).atRest .vacant 0 none) (s.planToDefaults b)

/-- The backoff interval after a failed attempt, in steps of 100 ms: 2 to the power of the count, at most 64 s (R45). -/
def backoffSteps (attempts : Nat) : Nat := 10 * min (2 ^ attempts) 64

/-! ## The map's commands (R8 to R12) -/

/-- A valve gain brought into range (R9). -/
def gainRange (n : Nat) : Nat := saturate 1 255 n

/-- A prime position brought into range (R9). -/
def primeRange (n : Nat) : Nat := saturate 50 1000 n

/-- A TTL time in steps of 100 ms brought into range (R9). -/
def ttlRange (n : Nat) : Nat := saturate 50 36000 n

/-- The entry that MAP_WRITE's nine bytes after the branch byte carry, brought into range, and whether a field was
saturated; `none` where a field cannot be saturated (R9, R185). `place` is where the slot tag stands. -/
def entryOfBytes (bs : List Byte) (place : Nat) : Option (MapEntry × Bool) :=
  match slotTagOf (at1 bs place), boolOfCode (at1 bs (place + 1)), authorityOfCode (at1 bs (place + 2)),
      ttlPolicyOfCode (at1 bs (place + 6)) with
  | some tag, some auto, some authority, some policy =>
    let gain := at1 bs (place + 3)
    let prime := at2 bs (place + 4)
    let time := at2 bs (place + 7)
    some ({ slotTag := some tag, autoAdmit := auto, authority := authority, gain := gainRange gain,
            primePosition := primeRange prime, ttlPolicy := policy, ttlTime := ttlRange time },
          decide (gainRange gain ≠ gain ∨ primeRange prime ≠ prime ∨ ttlRange time ≠ time))
  | _, _, _, _ => none

/-- R11: another branch's valid entry carries the tag. -/
def tagTaken (s : State) (b : BranchId) (tag : Option SlotTag) : Bool :=
  allBranches.any fun c => decide (c ≠ b ∧ tag ≠ none ∧ (s.entry c).slotTag = tag)

/-- The effect of an accepted MAP_WRITE (R10). -/
def writeEntry (b : BranchId) (e : MapEntry) (s : State) : State :=
  let t := s.setEntry b e
  if (s.branch b).state = .unmapped then enter b ((s.branch b).atRest .vacant 0 none) t else t

/-- MAP_WRITE's owning checks and effect (R8). -/
def mapWrite (body : List Byte) (b : BranchId) : Handler := fun s =>
  if s.store.save.isSome then refuse .busy s
  else if (s.branch b).state ≠ .unmapped ∧ (s.branch b).state ≠ .vacant then refuse .wrongState s
  else match entryOfBytes body 1 with
    | none => refuse .badValue s
    | some (e, clamped) =>
      if tagTaken s b e.slotTag then refuse .duplicateTag s
      else (Reply.written clamped, writeEntry b e s)

/-- MAP_CLEAR's owning checks and effect (R12). -/
def mapClear (b : BranchId) : Handler := fun s =>
  if s.store.save.isSome then refuse .busy s
  else if (s.branch b).state ≠ .vacant then refuse .wrongState s
  else (Reply.plain .ok, enter b ((s.branch b).atRest .unmapped 0 none) (s.setEntry b MapEntry.default))

/-- MAP_WRITE (R8). -/
def execMapWrite (p : Port) (body : List Byte) (s : State) : Host.Outcome State Fault Refusal :=
  request p 0x10 [10] [.rm] body (byBranch (at1 body 0) (mapWrite body)) s

/-- MAP_CLEAR (R12). -/
def execMapClear (p : Port) (body : List Byte) (s : State) : Host.Outcome State Fault Refusal :=
  request p 0x11 [1] [.rm] body (byBranch (at1 body 0) mapClear) s

/-! ## The lifecycle's requests -/

/-- ADMIT's owning checks and effect (R40). -/
def admitBranch (b : BranchId) : Handler := fun s =>
  if s.mode ≠ .run ∨ s.faultHold.isSome then refuse .mode s
  else if (s.zone (zoneOf b)).state = .wet then refuse .zoneWet s
  else if (s.branch b).state ≠ .vacant ∧ (s.branch b).state ≠ .noflow then refuse .wrongState s
  else (Reply.plain .ok, enterPriming b 1 s)

/-- RELEASE's owning check and effect (R56). -/
def release (b : BranchId) : Handler := fun s =>
  if (s.branch b).state.isAdmitted then (Reply.plain .ok, releaseBranch b s) else refuse .wrongState s

/-- PIN's owning check and effect by state (R54). -/
def pin (position : Nat) (b : BranchId) : Handler := fun s =>
  let x := saturate 0 1000 position
  let reply := Reply.written (outOfRange 0 1000 position)
  match (s.branch b).state with
  | .flowing | .setback => (reply, enter b ((s.branch b).toPinned x) s)
  | .pinned => (reply, s.setBranch b { s.branch b with pin := some x, supply := x })
  | _ => refuse .wrongState s

/-- UNPIN's owning check and effect (R55): the pin position becomes the allotment position. -/
def unpin (b : BranchId) : Handler := fun s =>
  if (s.branch b).state = .pinned then
    (Reply.plain .ok, enter b ((s.branch b).toFlowing (s.entry b) ((s.branch b).pin.getD (s.branch b).supply)) s)
  else refuse .wrongState s

/-- What an accepted SET_DEMAND does to the branch's state and TTL (R51). -/
def demandRefresh (b : BranchId) (s : State) : State :=
  match (s.branch b).state with
  | .flowing =>
    if (s.entry b).ttlPolicy = .refresh then s.setBranch b { s.branch b with ttl := some (Timer.start (s.entry b).ttlTime) } else s
  | .setback => enter b ((s.branch b).backToFlowing (s.entry b)) s
  | _ => s

/-- The branch takes no plan: it is at rest in UNMAPPED or VACANT (R65, R66). -/
def takesNoPlan (s : State) (b : BranchId) : Bool :=
  decide ((s.branch b).state = .unmapped ∨ (s.branch b).state = .vacant)

/-- SET_DEMAND's owning check and effect (R65). -/
def setDemand (demand : Nat) (b : BranchId) : Handler := fun s =>
  if takesNoPlan s b then refuse .wrongState s
  else (Reply.written (outOfRange 0 2000 demand),
    demandRefresh b (s.setPendingPlan b { s.pendingPlan b with demand := saturate 0 2000 demand }))

/-- SET_LIMITS's owning checks and effect (R66). -/
def setLimits (floor cap weight : Nat) (b : BranchId) : Handler := fun s =>
  if takesNoPlan s b then refuse .wrongState s
  else if saturate 0 2000 cap < saturate 0 2000 floor then refuse .badValue s
  else (Reply.written (outOfRange 0 2000 floor || outOfRange 0 2000 cap || outOfRange 1 15 weight),
    s.setPendingPlan b { s.pendingPlan b with
      floor := saturate 0 2000 floor, cap := saturate 0 2000 cap, weight := saturate 1 15 weight })

/-- ADMIT (R40). -/
def execAdmit (p : Port) (body : List Byte) (s : State) : Host.Outcome State Fault Refusal :=
  request p 0x12 [1] [.rm] body (bySlotTag (at1 body 0) admitBranch) s

/-- RELEASE (R56). -/
def execRelease (p : Port) (body : List Byte) (s : State) : Host.Outcome State Fault Refusal :=
  request p 0x13 [1] [.rm] body (bySlotTag (at1 body 0) release) s

/-- PIN (R54). -/
def execPin (p : Port) (body : List Byte) (s : State) : Host.Outcome State Fault Refusal :=
  request p 0x14 [3] [.rm] body (bySlotTag (at1 body 0) (pin (at2 body 1))) s

/-- UNPIN (R55). -/
def execUnpin (p : Port) (body : List Byte) (s : State) : Host.Outcome State Fault Refusal :=
  request p 0x15 [1] [.rm] body (bySlotTag (at1 body 0) unpin) s

/-- SET_DEMAND (R65). -/
def execSetDemand (p : Port) (body : List Byte) (s : State) : Host.Outcome State Fault Refusal :=
  request p 0x18 [3] [.rm] body (bySlotTag (at1 body 0) (setDemand (at2 body 1))) s

/-- SET_LIMITS (R66). -/
def execSetLimits (p : Port) (body : List Byte) (s : State) : Host.Outcome State Fault Refusal :=
  request p 0x19 [6] [.rm] body (bySlotTag (at1 body 0) (setLimits (at2 body 1) (at2 body 3) (at1 body 5))) s

/-! ## The lifecycle's timers -/

/-- A branch's own timer, read as the timer of state `st`, has run out. -/
def timerDue (s : State) (b : BranchId) (st : BranchState) : Bool :=
  decide ((s.branch b).state = st) && isOver (s.branch b).timer

/-- The end of a priming window: BACKOFF below RETRY_LIMIT, else NOFLOW with PRIME_EXHAUSTED (R45). -/
def primeWindowEnds (b : BranchId) (s : State) : State :=
  let n := (s.branch b).attempts
  if n < s.params.retryLimit then enter b ((s.branch b).atRest .backoff n (some (Timer.start (backoffSteps n)))) s
  else report .primeExhausted (.branch b) (some n) (enter b ((s.branch b).atRest .noflow n none) s)

/-- The TTL of a FLOWING branch has reached 0 and does not stand still in HOLD (R52). -/
def ttlDue (s : State) (b : BranchId) : Bool :=
  decide ((s.branch b).state = .flowing ∧ s.mode ≠ .hold) && isOver (s.branch b).ttl

/-- PRIME_WINDOW_EXPIRY (R45). -/
def execPrimeWindowExpiry (after : Nat) (b : BranchId) (s : State) : Host.Outcome State Fault Refusal :=
  event after (fun t => if timerDue t b .priming then primeWindowEnds b t else t) s

/-- BACKOFF_EXPIRY (R46). -/
def execBackoffExpiry (after : Nat) (b : BranchId) (s : State) : Host.Outcome State Fault Refusal :=
  event after (fun t => if timerDue t b .backoff then enterPriming b ((t.branch b).attempts + 1) t else t) s

/-- TTL_EXPIRY (R52). -/
def execTtlExpiry (after : Nat) (b : BranchId) (s : State) : Host.Outcome State Fault Refusal :=
  event after (fun t => if ttlDue t b then enter b (t.branch b).toSetback t else t) s

end Sys2Proof.Machine
end

