-- ==== Sys2Proof/Machine/Isolation.lean ====
section
/-! DEFINITION. The Isolation Sequencer and the Mode Controller: isolation orders and marks (R155 to R162), fault hold
(R163, R164), the manifold modes (R165 to R167) and parking (R168, R169). -/

namespace Sys2Proof.Machine

open Sys2Proof

/-! ## Marks and orders -/

/-- The mark write queue with a mark write handed on: a queued branch's value is replaced in place, another is added at
the end (R194). -/
def queueMark (b : BranchId) (value : Bool) (queue : List MarkEntry) : List MarkEntry :=
  if queue.any (·.branch == b) then
    queue.map fun e => if e.branch = b then { e with value := value } else e
  else queue ++ [{ branch := b, value := value }]

/-- A mark write in progress for a branch whose entry's value is replaced: it is to be written again (R194). -/
def MarkWrite.handed (b : BranchId) (w : MarkWrite) : MarkWrite := { w with replaced := w.replaced || w.branch == b }

/-- Hand a mark write to the Store Controller (R156, R194). -/
def handMark (b : BranchId) (value : Bool) (s : State) : State :=
  { s with store := { s.store with
      queue := queueMark b value s.store.queue, write := s.store.write.map (MarkWrite.handed b) } }

/-- The record on entry to ISOLATING (R59, R155). -/
def Branch.toIsolating (reason : IsolationReason) (window : Nat) : Branch :=
  { state := .isolating, attempts := 0, timer := some (Timer.start window), proof := 0, ttl := none, pin := none, target := none,
    supply := 0, ret := .opened, subPhase := some .supplyClosing, reason := some reason, isolationMark := true, hot := false }

/-- Whether an isolation order takes effect in a state: none in ISOLATING or ISOLATED, and in ISOLATE_FAULT only the
safety panel's (R155). -/
def orderTakes (reason : IsolationReason) (st : BranchState) : Bool :=
  match st with
  | .isolating | .isolated => false
  | .isolateFault => decide (reason = .panel)
  | _ => true

/-- The record and the mark write of an order that takes effect, without the notice, which the start states of power-on
do not set (R61, R155, R156). -/
def takeOrder (reason : IsolationReason) (b : BranchId) (s : State) : State :=
  let t := s.setBranch b (Branch.toIsolating reason s.params.isolateWindow)
  if (s.branch b).state.isIsolation then t else handMark b true t

/-- An isolation order for one branch (R155). -/
def isolate (reason : IsolationReason) (b : BranchId) (s : State) : State :=
  if orderTakes reason (s.branch b).state then notifyAll .branchChanged (takeOrder reason b s) else s

/-- Isolation orders carried out in the order given, ascending index (R2, R155). -/
def isolateAll (reason : IsolationReason) (bs : List BranchId) (s : State) : State :=
  bs.foldl (fun t b => isolate reason b t) s

/-- The code of a reason, the detail of BRANCH_ISOLATED (R157). -/
def IsolationReason.code : IsolationReason → Nat
  | .hardImbalance => 1
  | .confirmedImbalance => 2
  | .zoneWet => 3
  | .escalation => 4
  | .panel => 5
  | .stored => 6

/-! ## The closing sequence -/

/-- The record on entry to ISOLATED (R157). -/
def Branch.toIsolated (x : Branch) : Branch :=
  { x with state := .isolated, timer := none, subPhase := none, supply := 0, ret := .closed }

/-- The record on entry to ISOLATE_FAULT (R158). -/
def Branch.toIsolateFault (x : Branch) : Branch :=
  { x with state := .isolateFault, timer := none, subPhase := none, supply := 0, ret := .closed }

/-- The judgement of a branch in ISOLATING on a good report of its segment, by its sub-phase (R157). -/
def isolationProgress (b : BranchId) (s : State) : State :=
  let x := s.branch b
  let m := s.measure b
  match x.subPhase with
  | some .supplyClosing =>
    if m.supplyFeedback ≤ 10 then s.setBranch b { x with ret := .closed, subPhase := some .returnClosing } else s
  | some .returnClosing =>
    if m.returnFeedback = .closed ∧ m.supplyFlow ≤ s.params.residualFlow then
      report .branchIsolated (.branch b) (x.reason.map fun r => (r.code : Int)) (enter b x.toIsolated s)
    else s
  | none => s

/-! ## Modes and fault hold -/

/-- A change of mode, with MODE_CHANGED on all ports (R165). -/
def setMode (m : Mode) (s : State) : State := notifyAll .modeChanged { s with mode := m }

/-- Entry to SAFE: the mode, the incident after that of the cause, and the end of a park record (R167). -/
def enterSafe (count : Nat) (s : State) : State :=
  report .safeEntered .nothing (some count) (setMode .safe { s with park := none })

/-- A fault-hold cause taken by the Mode Controller (R163). -/
def faultCause (cause : FaultCause) (s : State) : State :=
  match s.faultHold with
  | none => notifyAll .modeChanged { s with faultHold := some { first := cause, began := s.uptime, count := 1 } }
  | some h =>
    let n := min (h.count + 1) 255
    let t := { s with faultHold := some { h with count := n } }
    if s.mode = .safe then t else enterSafe n t

/-- The detail of ISOLATE_FAULT: the sub-phase in which the window ran out (R158). -/
def faultDetail (x : Branch) : Int := if x.subPhase = some .returnClosing then 2 else 1

/-- The end of an isolation window: the fault, the escalation to the siblings, and the fault-hold cause, in that order
(R158). -/
def isolateWindowEnds (b : BranchId) (s : State) : State :=
  let x := s.branch b
  let t := report .isolateFault (.branch b) (some (faultDetail x)) (enter b x.toIsolateFault s)
  faultCause (.isolateFault b) (isolateAll .escalation (siblings b) t)

/-- ISOLATE_WINDOW_EXPIRY (R158). -/
def execIsolateWindowExpiry (after : Nat) (b : BranchId) (s : State) : Host.Outcome State Fault Refusal :=
  event after (fun t => if timerDue t b .isolating then isolateWindowEnds b t else t) s

/-- A branch is in ISOLATE_FAULT or both feeds are marked FAILED: what bars CLEAR_FAULT and CLEAR_SAFE (R164, R167). -/
def faultStands (s : State) : Bool :=
  allBranches.any (fun b => decide ((s.branch b).state = .isolateFault)) || ((s.feed .a).failed && (s.feed .b).failed)

/-- CLEAR_FAULT's checks and effect (R164). -/
def clearFault : Handler := fun s =>
  if s.mode = .safe then refuse .mode s
  else if s.faultHold = none then (Reply.plain .ok, s)
  else if faultStands s then refuse .wrongState s
  else (Reply.plain .ok, notifyAll .modeChanged { s with faultHold := none })

/-- CLEAR_SAFE's checks and effect (R167). -/
def clearSafe : Handler := fun s =>
  if s.mode ≠ .safe then refuse .mode s
  else if faultStands s then refuse .wrongState s
  else (Reply.plain .ok, setMode .run { s with faultHold := none })

/-- HOLD's check and effect (R166). -/
def hold : Handler := fun s => if s.mode = .run then (Reply.plain .ok, setMode .hold s) else refuse .mode s

/-- RELEASE_HOLD's check and effect (R166). -/
def releaseHold : Handler := fun s => if s.mode = .hold then (Reply.plain .ok, setMode .run s) else refuse .mode s

/-- CLEAR_FAULT (R164). -/
def execClearFault (p : Port) (body : List Byte) (s : State) : Host.Outcome State Fault Refusal :=
  request p 0x38 [0] [.sp] body clearFault s

/-- CLEAR_SAFE (R167). -/
def execClearSafe (p : Port) (body : List Byte) (s : State) : Host.Outcome State Fault Refusal :=
  request p 0x39 [0] [.sp] body clearSafe s

/-- HOLD (R166). -/
def execHold (p : Port) (body : List Byte) (s : State) : Host.Outcome State Fault Refusal :=
  request p 0x36 [0] [.sp] body hold s

/-- RELEASE_HOLD (R166). -/
def execReleaseHold (p : Port) (body : List Byte) (s : State) : Host.Outcome State Fault Refusal :=
  request p 0x37 [0] [.sp] body releaseHold s

/-! ## Panel isolation and restoration -/

/-- ISOLATE_BRANCH (R160). -/
def execIsolateBranch (p : Port) (body : List Byte) (s : State) : Host.Outcome State Fault Refusal :=
  request p 0x30 [1] [.sp] body (byBranch (at1 body 0) fun b t => (Reply.plain .ok, isolate .panel b t)) s

/-- The zone's confirm timer made absent (R145). -/
def stopConfirm (z : SegId) (s : State) : State := s.setZone z { s.zone z with confirm := none }

/-- ISOLATE_ZONE (R160). -/
def execIsolateZone (p : Port) (body : List Byte) (s : State) : Host.Outcome State Fault Refusal :=
  request p 0x31 [1] [.sp] body
    (byZone (at1 body 0) fun z t => (Reply.plain .ok, isolateAll .panel (zoneBranches z) (stopConfirm z t))) s

/-- The state a restored branch comes to rest in (R5, R60). -/
def MapEntry.restState (e : MapEntry) : BranchState := if e.slotTag = none then .unmapped else .vacant

/-- The effect of an accepted restore of one branch (R60, R161). -/
def restore (b : BranchId) (s : State) : State :=
  let x := { (s.branch b).atRest (s.entry b).restState 0 none with isolationMark := false }
  let t := handMark b false (s.setDrip b { s.drip b with amount := 0, level := .none })
  enter b x (t.planToDefaults b)

/-- A branch RESTORE takes: in ISOLATED or ISOLATE_FAULT (R161). -/
def BranchState.isRestorable : BranchState → Bool
  | .isolated | .isolateFault => true
  | _ => false

/-- RESTORE_BRANCH's checks after addressing and authority (R161). -/
def restoreBranch (b : BranchId) : Handler := fun s =>
  if (s.branch b).state.isRestorable = false then refuse .wrongState s
  else if (s.zone (zoneOf b)).state = .wet then refuse .zoneWet s
  else (Reply.plain .ok, restore b s)

/-- RESTORE_BRANCH from the rack manager: the restore authority is the first check (R15). -/
def restoreByRack (b : BranchId) : Handler := fun s =>
  if (s.entry b).authority = .safetyOnly then refuse .notPermitted s else restoreBranch b s

/-- RESTORE_ZONE's check and effect (R162). -/
def restoreZone (z : SegId) : Handler := fun s =>
  if (s.zone z).state = .wet then refuse .zoneWet s
  else (Reply.plain .ok,
    (zoneBranches z).foldl (fun t b => if (t.branch b).state.isRestorable then restore b t else t) s)

/-- RESTORE_BRANCH: by branch index from SP, by slot tag from RM (R14, R161). -/
def execRestoreBranch (p : Port) (body : List Byte) (s : State) : Host.Outcome State Fault Refusal :=
  request p 0x32 [1] [.sp, .rm] body
    (if p = .rm then bySlotTag (at1 body 0) restoreByRack else byBranch (at1 body 0) restoreBranch) s

/-- RESTORE_ZONE (R162). -/
def execRestoreZone (p : Port) (body : List Byte) (s : State) : Host.Outcome State Fault Refusal :=
  request p 0x33 [1] [.sp] body (byZone (at1 body 0) restoreZone) s

/-! ## Parking -/

/-- PARK's release of one branch (R58). -/
def parkBranch (s : State) (b : BranchId) : State :=
  if (s.branch b).state.isAdmitted then releaseBranch b s else s

/-- PARK's check and effect (R168). -/
def park : Handler := fun s =>
  if s.mode ≠ .run ∧ s.mode ≠ .hold then refuse .mode s
  else
    let t := setMode .parking (allBranches.foldl parkBranch s)
    (Reply.plain .ok, { t with park := some { window := Timer.start s.params.parkWindow, confirmed := 0 } })

/-- The end of a park, by completion or by its window (R169). -/
def parkEnds (s : State) : State := setMode .parked { s with park := none }

/-- UNPARK's check and effect (R169). -/
def unpark : Handler := fun s =>
  if s.mode = .parking ∨ s.mode = .parked then (Reply.plain .ok, setMode .run { s with park := none })
  else refuse .mode s

/-- A position of the park test passes (R169). -/
def positionParked (s : State) (b : BranchId) : Bool :=
  (s.branch b).state.isIsolation ||
    decide ((s.measure b).supplyFeedback ≤ 10 ∧ (s.measure b).returnFeedback = .closed)

/-- A segment's confirmation set or cleared. -/
def Park.confirm (z : SegId) (ok : Bool) (p : Park) : Park :=
  { p with confirmed := if ok then p.confirmed ||| BitVec.twoPow 16 z.val else p.confirmed &&& ~~~(BitVec.twoPow 16 z.val) }

/-- The ONLINE segments. -/
def onlineSegments (s : State) : List SegId := allSegments.filter fun z => decide ((s.segment z).link = .online)

/-- The ONLINE segments whose confirmation is not set (R169). -/
def unconfirmed (s : State) (p : Park) : List SegId :=
  (onlineSegments s).filter fun z => !p.confirmed.getLsbD z.val

/-- The park test on a good report of a segment, and completion (R169). -/
def parkTest (z : SegId) (s : State) : State :=
  match s.mode, s.park with
  | .parking, some p =>
    let q := p.confirm z ((zoneBranches z).all (positionParked s))
    if unconfirmed s q = [] then parkEnds s else { s with park := some q }
  | _, _ => s

/-- The detail of PARK_INCOMPLETE: ONLINE segments not confirmed, or 16 where none is ONLINE (R169). -/
def parkDetail (s : State) (p : Park) : Nat := if onlineSegments s = [] then 16 else (unconfirmed s p).length

/-- The park window has run out in PARKING (R169). -/
def parkWindowEnds (s : State) : State :=
  match s.mode, s.park with
  | .parking, some p =>
    if p.window.steps = 0 then report .parkIncomplete .nothing (some (parkDetail s p)) (parkEnds s) else s
  | _, _ => s

/-- PARK (R168). -/
def execPark (p : Port) (body : List Byte) (s : State) : Host.Outcome State Fault Refusal :=
  request p 0x3A [0] [.rm] body park s

/-- UNPARK (R169). -/
def execUnpark (p : Port) (body : List Byte) (s : State) : Host.Outcome State Fault Refusal :=
  request p 0x3B [0] [.rm] body unpark s

/-- PARK_WINDOW_EXPIRY (R169). -/
def execParkWindowExpiry (after : Nat) (s : State) : Host.Outcome State Fault Refusal := event after parkWindowEnds s

end Sys2Proof.Machine
end

