-- ==== Sys2Proof/Machine/Feeds.lean ====
section
/-! DEFINITION. The Feed Controller: the judgement of a head report (R123), switches (R124 to R128), the failover monitor
(R129 to R132), the feed lock (R133) and the start-up of the feeds (R135). -/

namespace Sys2Proof.Machine

open Sys2Proof

/-! ## The active feed -/

/-- The Cycle Timer turned to a mark input afresh: FREE, with no reference, count, interval, deadline or further cycles
(R79, R80). -/
def CycleTimer.turned (t : CycleTimer) : CycleTimer :=
  { t with timing := .free, lockIn := 0, reference := none, interval := none, deadline := none, further := [] }

/-- A change of the active feed: FEED_CHANGED on all ports, and the Cycle Timer turns to the new input (R79, R122). -/
def changeActive (f : Feed) (s : State) : State :=
  notifyAll .feedChanged { s with activeFeed := f, timer := s.timer.turned }

/-- FEED_FAILOVER for a feed, with its latest reported pressure (R130, R131, R135). -/
def reportFailover (f : Feed) (s : State) : State := report .feedFailover (.feed f) (some (s.pressure f)) s

/-! ## Switches -/

/-- A switch in OPENING is cancelled: the target's inlet CLOSED, the record absent (R124). -/
def cancelSwitch (w : Switch) (s : State) : State := { s.setInlet w.target .closed with switch := none }

/-- A switch in OPENING ends without changing the active feed, with SWITCH_FAILED (R126). -/
def failSwitch (w : Switch) (s : State) : State :=
  report .switchFailed (.feed w.target) (some (s.pressure w.target)) (cancelSwitch w s)

/-- A switch in OPENING proves (R125). -/
def proveSwitch (w : Switch) (s : State) : State :=
  let t := (changeActive w.target s).setInlet w.origin .closed
  { t with switch := some { w with phase := .closingOld, window := Timer.start s.params.switchWindow } }

/-- The requester of a switch by port; SP issues none (R122, R124). -/
def Port.requester : Port → Requester
  | .ua => .ua
  | .ub => .ub
  | .rm | .sp => .rm

/-- SWITCH_FEED's checks and effect (R124). -/
def switchFeed (p : Port) (code : Nat) : Handler := fun s =>
  match feedOfCode code with
  | none => refuse .badValue s
  | some target =>
    if s.feedLock then refuse .locked s
    else if s.mode = .safe then refuse .mode s
    else match s.switch with
      | none =>
        if target = s.activeFeed then (Reply.plain .ok, s)
        else if (s.feed target).failed then refuse .feedFailed s
        else (Reply.plain .ok, beginSwitch target (Port.requester p) s)
      | some w =>
        if target = w.target then (Reply.plain .ok, s)
        else if w.phase = .opening then (Reply.plain .ok, cancelSwitch w s)
        else refuse .tooLate s

/-- LOCK_FEED's effect (R133). -/
def lockFeed : Handler := fun s => (Reply.plain .ok, { s with feedLock := true })

/-- SWITCH_FEED (R124). -/
def execSwitchFeed (p : Port) (body : List Byte) (s : State) : Host.Outcome State Fault Refusal :=
  request p 0x24 [1] [.rm, .ua, .ub] body (switchFeed p (at1 body 0)) s

/-- LOCK_FEED (R133). -/
def execLockFeed (p : Port) (body : List Byte) (s : State) : Host.Outcome State Fault Refusal :=
  request p 0x25 [0] [.rm] body lockFeed s

/-- The end of a switch window in OPENING (R126). -/
def openingEnds (s : State) : State :=
  match s.switch with
  | some w => if w.phase = .opening ∧ w.window.steps = 0 then failSwitch w s else s
  | none => s

/-- The end of a switch window in CLOSING_OLD (R127). -/
def closingOldEnds (s : State) : State :=
  match s.switch with
  | some w =>
    if w.phase = .closingOld ∧ w.window.steps = 0 then
      report .inletStuck (.feed w.origin) none { s with switch := none }
    else s
  | none => s

/-- SWITCH_WINDOW_EXPIRY (R126). -/
def execSwitchWindowExpiry (after : Nat) (s : State) : Host.Outcome State Fault Refusal := event after openingEnds s

/-- CLOSING_OLD_EXPIRY (R127). -/
def execClosingOldExpiry (after : Nat) (s : State) : Host.Outcome State Fault Refusal := event after closingOldEnds s

/-! ## The failover monitor -/

/-- Both inlets commanded OPEN, both-open present, the start-up ended, BOTH_FEEDS_FAILED reported and handed on (R131). -/
def bothFeedsFailed (s : State) : State :=
  let t := (s.setInlet .a .opened).setInlet .b .opened
  faultCause .bothFeedsFailed
    (report .bothFeedsFailed .nothing none { t with switch := none, startup := none, bothOpen := true })

/-- The failover from a feed just marked to the other, which is clear (R130). A both-open condition kept by a warm reset
ends, since the failed feed's inlet is commanded CLOSED (R122; notes/assumptions/14.md). -/
def failover (f : Feed) (s : State) : State :=
  let t := changeActive f.other ((s.setInlet f.other .opened).setInlet f .closed)
  reportFailover f { t with switch := none, startup := none, bothOpen := false }

/-- A switch in OPENING toward the feed fails, with SWITCH_FAILED (R126); any other switch is left (R132). -/
def failSwitchToward (f : Feed) (s : State) : State :=
  match s.switch with
  | some w => if w.target = f ∧ w.phase = .opening then failSwitch w s else s
  | none => s

/-- A feed's FAILED mark is set by its low-pressure timer (R129), and what follows (R130 to R132). -/
def markFailed (f : Feed) (s : State) : State :=
  let t := s.setFeed f { s.feed f with failed := true, lowTimer := none, proof := 0 }
  if (s.feed f.other).failed then bothFeedsFailed (failSwitchToward f t)
  else if s.activeFeed = f then
    if s.params.failoverEnable then failover f t else reportFailover f t
  else failSwitchToward f t

/-- A feed's running low-pressure timer has reached FAILOVER_WINDOW (R129). -/
def lowPressureDue (s : State) (f : Feed) : Bool :=
  match (s.feed f).lowTimer with
  | some t => decide (s.params.failoverWindow ≤ t.steps)
  | none => false

/-- The mark of a feed whose timer is due. -/
def lowPressureEnds (f : Feed) (s : State) : State := if lowPressureDue s f then markFailed f s else s

/-- LOW_PRESSURE_EXPIRY (R129). -/
def execLowPressureExpiry (after : Nat) (f : Feed) (s : State) : Host.Outcome State Fault Refusal :=
  event after (lowPressureEnds f) s

/-- The end of the start-up window: the fallback, unless the other feed is FAILED (R135). -/
def startupEnds (s : State) : State :=
  if isOver s.startup then
    let old := s.activeFeed
    let t := { s with startup := none }
    if (s.feed old.other).failed then t
    else reportFailover old (changeActive old.other ((t.setInlet old.other .opened).setInlet old .closed))
  else s

/-- STARTUP_WINDOW_EXPIRY (R135). -/
def execStartupWindowExpiry (after : Nat) (s : State) : Host.Outcome State Fault Refusal := event after startupEnds s

/-! ## Judging a head report (R123) -/

/-- Step 1: a feed's proof count. -/
def FeedRecord.countProof (p : Params) (pressure : Nat) (f : FeedRecord) : FeedRecord :=
  { f with proof := if p.proofPressure ≤ pressure then min (f.proof + 1) 3 else 0 }

/-- Step 2: a feed's low-pressure timer. -/
def FeedRecord.timeLow (p : Params) (pressure : Nat) (f : FeedRecord) : FeedRecord :=
  { f with lowTimer :=
      if f.failed then none else if pressure < p.failPressure then some (f.lowTimer.getD (Timer.start 0))
      else none }

/-- Steps 1 to 3 for one feed: its count, its timer, and the clearing of its mark where this report has raised the count
to 3 (R123, R132). -/
def FeedRecord.judge (p : Params) (pressure : Nat) (f : FeedRecord) : FeedRecord :=
  let g := (f.countProof p pressure).timeLow p pressure
  if f.proof < 3 ∧ g.proof = 3 then { g with failed := false } else g

/-- Steps 1 to 3 for both feeds. -/
def judgeFeeds (s : State) : State :=
  (s.setFeed .a ((s.feed .a).judge s.params s.head.pressureA)).setFeed .b
    ((s.feed .b).judge s.params s.head.pressureB)

/-- This report has raised a feed's proof count to 3. -/
def raisedToThree (before after : State) (f : Feed) : Bool :=
  decide ((before.feed f).proof < 3 ∧ (after.feed f).proof = 3)

/-- Step 4: the switch (R125, R127). -/
def judgeSwitch (before s : State) : State :=
  match s.switch with
  | some w =>
    match w.phase with
    | .opening => if raisedToThree before s w.target then proveSwitch w s else s
    | .closingOld => if s.inletFeedback w.origin = .closed then { s with switch := none } else s
  | none => s

/-- Step 5: the start-up (R135). -/
def judgeStartup (before s : State) : State :=
  if s.startup ≠ none ∧ raisedToThree before s s.activeFeed then { s with startup := none } else s

/-- Step 6: the resolution of a both-open condition (R131). -/
def resolveBothOpen (s : State) : State :=
  if s.bothOpen then
    let active := s.activeFeed
    if (s.feed active).failed = false ∧ (s.feed active).proof = 3 then
      { s.setInlet active.other .closed with bothOpen := false }
    else if (s.feed active).failed ∧ (s.feed active.other).failed = false ∧ (s.feed active.other).proof = 3 ∧
        s.params.failoverEnable then
      let t := reportFailover active ((changeActive active.other s).setInlet active .closed)
      { t with bothOpen := false }
    else s
  else s

/-- The judgement of a good head report by the Feed Controller, in the order of R123. -/
def feedJudgement (s : State) : State :=
  resolveBothOpen (judgeStartup s (judgeSwitch s (judgeFeeds s)))

end Sys2Proof.Machine
end

