-- ==== Sys2Proof/Machine/Leases.lean ====
section
/-! DEFINITION. The Lease Unit: grants and withdrawals (R106 to R108, R113), the marks of a lease's life (R109, R110, R112),
the handover test (R111) and the budget in force (R114). -/

namespace Sys2Proof.Machine

open Sys2Proof

/-! ## Granting and withdrawing -/

/-- The feed whose lease a unit controller's port writes (R106). -/
def Port.leaseFeed : Port → Feed
  | .ub => .b
  | _ => .a

/-- A duration in ms brought into 30 to 86400 s and rounded down to steps of 100 ms (R107, step 1). -/
def durationSteps (ms : Nat) : Nat := saturate 30000 86400000 ms / 100

/-- The default marks of a duration in steps (R107, step 2). -/
def defaultMarks (duration : Nat) : Nat × Nat := (duration / 2, duration * 7 / 8)

/-- The marks used, and whether given marks were replaced (R107, steps 2 and 3). Marks are given in ms. -/
def grantMarks (duration : Nat) (given : Option (Nat × Nat)) : (Nat × Nat) × Bool :=
  match given with
  | none => (defaultMarks duration, false)
  | some (m1, m2) =>
    if 0 < m1 / 100 ∧ m1 / 100 < m2 / 100 ∧ m2 / 100 < duration then ((m1 / 100, m2 / 100), false)
    else (defaultMarks duration, true)

/-- The lease a grant writes: BOUND at age 0 (R108). -/
def grantedLease (budget ms : Nat) (given : Option (Nat × Nat)) : Lease :=
  let marks := (grantMarks (durationSteps ms) given).1
  { phase := .bound, budget := budget, duration := durationSteps ms, t1 := marks.1, t2 := marks.2, age := Timer.start 0 }

/-- A grant answered CLAMPED: the duration was saturated or given marks were replaced (R107). -/
def grantClamped (ms : Nat) (given : Option (Nat × Nat)) : Bool :=
  outOfRange 30000 86400000 ms || (grantMarks (durationSteps ms) given).2

/-- The marks a GRANT_BUDGET body carries: both in a body of 14 bytes, neither in one of 6 (R106, R185). -/
def givenMarks (body : List Byte) : Option (Nat × Nat) :=
  if body.length = 14 then some (at4 body 6, at4 body 10) else none

/-- GRANT_BUDGET's effect (R108). -/
def grantBudget (f : Feed) (body : List Byte) : Handler := fun s =>
  (Reply.written (grantClamped (at4 body 2) (givenMarks body)),
    s.setLease f (some (grantedLease (at2 body 0) (at4 body 2) (givenMarks body))))

/-- A lease state in which its budget counts when the feed is active (R105). -/
def Lease.counts (l : Lease) : Bool := decide (l.phase ≠ .lapsed)

/-- WITHDRAW_BUDGET's effect (R113). -/
def withdrawBudget (f : Feed) : Handler := fun s =>
  let counted := match s.lease f with
    | some l => l.counts
    | none => false
  let t := s.setLease f none
  (Reply.plain .ok, if counted && decide (s.activeFeed = f) then notifyAll .budgetLapsed t else t)

/-- GRANT_BUDGET (R106, R108). -/
def execGrantBudget (p : Port) (body : List Byte) (s : State) : Host.Outcome State Fault Refusal :=
  request p 0x20 [6, 14] [.ua, .ub] body (grantBudget (Port.leaseFeed p) body) s

/-- WITHDRAW_BUDGET (R113). -/
def execWithdrawBudget (p : Port) (body : List Byte) (s : State) : Host.Outcome State Fault Refusal :=
  request p 0x21 [0] [.ua, .ub] body (withdrawBudget (Port.leaseFeed p)) s

/-! ## The budget in force -/

/-- The budget in force, or its absence (R114). -/
def budgetInForce (s : State) : Option Nat :=
  match s.lease s.activeFeed with
  | some l => if l.counts then some l.budget else none
  | none => none

/-! ## The marks -/

/-- The lease of a feed is in a phase and its age has reached the mark that ends the phase. -/
def leaseDue (s : State) (f : Feed) (phase : LeasePhase) : Bool :=
  match s.lease f with
  | some l => decide (l.phase = phase) && l.markReached
  | none => false

/-- LEASE_T1_REACHED (R109). -/
def execLeaseT1Reached (after : Nat) (f : Feed) (s : State) : Host.Outcome State Fault Refusal :=
  leaseEvent after (fun t => if leaseDue t f .bound then reachT1 f t else t) s

/-- LEASE_T2_REACHED (R110). -/
def execLeaseT2Reached (after : Nat) (f : Feed) (s : State) : Host.Outcome State Fault Refusal :=
  leaseEvent after (fun t => if leaseDue t f .renewDue then reachT2 f t else t) s

/-- LEASE_LAPSE (R112). -/
def execLeaseLapse (after : Nat) (f : Feed) (s : State) : Host.Outcome State Fault Refusal :=
  leaseEvent after (fun t => if leaseDue t f .expiring then lapse f t else t) s

end Sys2Proof.Machine
end

