-- ==== Sys2Proof/Machine/Allotment.lean ====
section
/-! DEFINITION. The Allotment Engine: one allotment cycle from the plan swap to the cycle summary (R68, R81, R84 to R99). -/

namespace Sys2Proof.Machine

open Sys2Proof

/-! ## Roles and inputs (R84, R85) -/

/-- The branches in a state, in ascending index. -/
def branchesIn (s : State) (p : BranchState → Bool) : List BranchId := allBranches.filter fun b => p (s.branch b).state

/-- The allotting branches (R84). -/
def allotting (s : State) : List BranchId := branchesIn s BranchState.isAllotting

/-- The priming branches (R84). -/
def primingBranches (s : State) : List BranchId := branchesIn s fun st => decide (st = .priming)

/-- The pinned branches (R84). -/
def pinnedBranches (s : State) : List BranchId := branchesIn s fun st => decide (st = .pinned)

/-- A sum over branches. -/
def sumOver {α : Type} (xs : List α) (f : α → Nat) : Nat := (xs.map f).sum

/-! ## Stage 1: the available budget (R86) -/

/-- P times PRIME_RESERVE. -/
def primingReserve (s : State) : Nat := (primingBranches s).length * s.params.primeReserve

/-- The measured supply flows of the pinned branches. -/
def pinnedConsumption (s : State) : Nat := sumOver (pinnedBranches s) fun b => (s.measure b).supplyFlow

/-- The available budget of a budget B; a negative result becomes 0 (R86). -/
def availableBudget (s : State) (budget : Nat) : Nat := budget - primingReserve s - pinnedConsumption s

/-! ## Stage 2: demand resolution (R88, R89) -/

/-- The branch is hot: its outlet temperature is a number at least HOT_LIMIT (R89). -/
def isHot (s : State) (b : BranchId) : Bool :=
  match (s.measure b).temperature with
  | some t => decide (s.params.hotLimit ≤ t)
  | none => false

/-- The resolved demand R of an allotting branch (R88). -/
def resolvedDemand (s : State) (b : BranchId) : Nat :=
  let e := s.activePlan b
  let base := if isHot s b then e.cap else if (s.branch b).state = .setback then e.floor else e.demand
  max e.floor (min base e.cap)

/-- The hot flag of one allotting branch rewritten, with BRANCH_HOT where it is hot (R89). -/
def judgeHot (s : State) (b : BranchId) : State :=
  let t := s.setBranch b { s.branch b with hot := isHot s b }
  match (s.measure b).temperature with
  | some x => if isHot s b then report .branchHot (.branch b) (some x) t else t
  | none => t

/-! ## Stage 3: fitting the budget (R90 to R92) -/

/-- An allotting branch in the fit: its floor F, its resolved demand R and its weight W. -/
structure Share where
  branch : BranchId
  floor : Nat
  resolved : Nat
  weight : Nat
  deriving DecidableEq, Repr

/-- R - F (R88). -/
def Share.headroom (x : Share) : Nat := x.resolved - x.floor

/-- The shares of the allotting branches, in ascending index. -/
def sharesOf (s : State) : List Share :=
  (allotting s).map fun b =>
    { branch := b, floor := (s.activePlan b).floor, resolved := resolvedDemand s b, weight := (s.activePlan b).weight }

/-- The sum of weight times headroom: Dn of a pass (R92, step 2). -/
def weightedHeadroom (xs : List Share) : Nat := sumOver xs fun x => x.weight * x.headroom

/-- The test by which a pass fixes a branch at its resolved demand (R92, step 3). -/
def Share.fixes (spare dn : Nat) (x : Share) : Bool := decide (dn < spare * x.weight)

/-- The target of a branch in the final pass (R92, step 5). -/
def Share.finalTarget (spare dn : Nat) (x : Share) : Nat := x.floor + spare * x.weight * x.headroom / dn

/-- The passes of the water-fill: the targets, and the pass count. At most `fuel` passes fix a branch; R93 bounds the
fixing passes by 47, so the fuel is never used up. -/
def waterFill : Nat → Nat → List Share → List (BranchId × Nat) × Nat
  | 0, _, xs => (xs.map fun x => (x.branch, x.floor), 0)
  | fuel + 1, spare, xs =>
    let dn := weightedHeadroom xs
    let fixed := xs.filter (Share.fixes spare dn)
    if fixed = [] then (xs.map fun x => (x.branch, x.finalTarget spare dn), 1)
    else
      let rest := waterFill fuel (spare - sumOver fixed Share.headroom) (xs.filter fun x => !(x.fixes spare dn))
      (fixed.map (fun x => (x.branch, x.resolved)) ++ rest.1, rest.2 + 1)

/-- The outcome of stage 3: the case, the targets and the pass count. -/
structure FitResult where
  fit : Fit
  targets : List (BranchId × Nat)
  passes : Nat
  deriving DecidableEq, Repr

/-- Every branch at its floor (R87, R91). -/
def atFloors (xs : List Share) : List (BranchId × Nat) := xs.map fun x => (x.branch, x.floor)

/-- The case of the cycle and its targets (R87, R90). `available` is `none` in floor mode. -/
def fitShares (available : Option Nat) (xs : List Share) : FitResult :=
  match available with
  | none => { fit := .floorMode, targets := atFloors xs, passes := 0 }
  | some avail =>
    if sumOver xs (·.resolved) ≤ avail then
      { fit := .unsqueezed, targets := xs.map fun x => (x.branch, x.resolved), passes := 0 }
    else if avail < sumOver xs (·.floor) then { fit := .breach, targets := atFloors xs, passes := 0 }
    else
      let w := waterFill 48 (avail - sumOver xs (·.floor)) xs
      { fit := .waterFill, targets := w.1, passes := w.2 }

/-- BUDGET_BREACH with the deficit, saturated to 32767 (R91). -/
def reportBreach (available : Option Nat) (xs : List Share) (r : FitResult) (s : State) : State :=
  if r.fit = .breach then
    report .budgetBreach .nothing (some (min (sumOver xs (·.floor) - available.getD 0) 32767 : Nat)) s
  else s

/-- A target written into its branch's record (R94). -/
def writeTarget (s : State) (x : BranchId × Nat) : State := s.setBranch x.1 { s.branch x.1 with target := some x.2 }

/-! ## Stage 4: the position update (R95 to R97) -/

/-- STEP: the step bound in force (R97). -/
def Params.step (p : Params) : Nat := if p.convergenceFast then p.stepFast else p.stepSlow

/-- The step applied for a flow error and a valve gain (R96, R97). -/
def stepApplied (p : Params) (error : Int) (gain : Nat) : Int :=
  let raw := (error * gain).tdiv 256
  if error.natAbs ≤ p.deadband then 0
  else if 0 < error then min raw p.step
  else if -(p.leapThreshold : Int) ≤ error then max raw (-(p.step : Int))
  else max raw (-(p.leapLimit : Int))

/-- The position of one branch with a target moved by its step and clamped into 0 to 1000 (R96, R97). -/
def movePosition (s : State) (b : BranchId) : State :=
  match (s.branch b).target with
  | some t =>
    let error := (t : Int) - (s.measure b).supplyFlow
    let x := (s.branch b).supply + stepApplied s.params error (s.entry b).gain
    s.setBranch b { s.branch b with supply := saturate 0 1000 x }
  | none => s

/-- Stage 4 for one allotting branch: in an ONLINE segment (R95). -/
def updatePosition (s : State) (b : BranchId) : State :=
  if (s.segment (zoneOf b)).link = .online then movePosition s b else s

/-- Stage 4: in RUN only (R95). -/
def stage4 (bs : List BranchId) (s : State) : State := if s.mode = .run then bs.foldl updatePosition s else s

/-! ## The cycle -/

/-- The cycle summary of a computing cycle, from the state at its start after the swap (R99). -/
def summarize (s : State) (xs : List Share) (r : FitResult) : CycleSummary :=
  { cycleTime := some s.uptime, mode := s.mode, feed := s.activeFeed, fit := r.fit,
    budget := (budgetInForce s).map fun b =>
      { inForce := b, primingReserve := primingReserve s, pinnedConsumption := pinnedConsumption s,
        available := availableBudget s b },
    allotting := xs.length, priming := (primingBranches s).length, pinned := (pinnedBranches s).length,
    demand := sumOver xs (·.resolved), floors := sumOver xs (·.floor), targets := sumOver r.targets (·.2),
    passes := r.passes, hotBranches := ((allotting s).filter (isHot s)).length }

/-- The computation of a cycle, from the state after the swap (R84 to R99). -/
def compute (s : State) : State :=
  let bs := allotting s
  let xs := sharesOf s
  let available := (budgetInForce s).map (availableBudget s)
  let r := fitShares available xs
  let judged := bs.foldl judgeHot s
  let written := r.targets.foldl writeTarget judged
  { stage4 bs (reportBreach available xs r written) with summary := summarize s xs r }

/-- The plan swap (R68). -/
def swapPlan (s : State) : State := if s.freeze = none then { s with planActive := s.planPending } else s

/-- The modes in which a cycle computes (R81). -/
def Mode.computes : Mode → Bool
  | .run | .hold | .safe => true
  | .parking | .parked => false

/-- One allotment cycle: the swap, and the computation for the mode (R68, R81). -/
def allotmentCycle (s : State) : State :=
  let t := swapPlan s
  if s.mode.computes then compute t else t

end Sys2Proof.Machine
end

