-- ==== Sys2Proof/Machine/Cycle.lean ====
section
/-! DEFINITION. The Cycle Timer (R74 to R80) and the freeze of the plan (R69 to R72). -/

namespace Sys2Proof.Machine

open Sys2Proof

/-! ## Freezing the plan -/

/-- The holder a port becomes; UA and UB hold none (R69). -/
def Port.holder : Port → Holder
  | .sp => .sp
  | _ => .rm

/-- The port of a holder (R71). -/
def Holder.port : Holder → Port
  | .rm => .rm
  | .sp => .sp

/-- FREEZE by the freeze record (R69). -/
def freezePlan (h : Holder) : Handler := fun s =>
  match s.freeze with
  | some f =>
    if f.holder = h then (Reply.plain .ok, { s with freeze := some { holder := h, age := Timer.start 0 } })
    else refuse .heldByOther s
  | none => (Reply.plain .ok, { s with freeze := some { holder := h, age := Timer.start 0 } })

/-- THAW by the freeze record (R70). -/
def thawPlan (h : Holder) : Handler := fun s =>
  match s.freeze with
  | some f => if f.holder = h then (Reply.plain .ok, { s with freeze := none }) else refuse .heldByOther s
  | none => (Reply.plain .ok, s)

/-- The freeze expires where its age has reached FREEZE_LIMIT (R71). -/
def freezeEnds (s : State) : State :=
  match s.freeze with
  | some f =>
    if s.params.freezeLimit ≤ f.age.steps then notify f.holder.port .freezeExpired { s with freeze := none } else s
  | none => s

/-- FREEZE (R69). -/
def execFreeze (p : Port) (body : List Byte) (s : State) : Host.Outcome State Fault Refusal :=
  request p 0x1A [0] [.rm, .sp] body (freezePlan (Port.holder p)) s

/-- THAW (R70). -/
def execThaw (p : Port) (body : List Byte) (s : State) : Host.Outcome State Fault Refusal :=
  request p 0x1B [0] [.rm, .sp] body (thawPlan (Port.holder p)) s

/-- FREEZE_EXPIRY (R71). -/
def execFreezeExpiry (after : Nat) (s : State) : Host.Outcome State Fault Refusal := event after freezeEnds s

/-! ## Starting cycles -/

/-- A cycle starts now (R74). -/
def startCycle (s : State) : State := allotmentCycle { s with timer := { s.timer with lastStart := some s.clock } }

/-- The moment from which the next free cycle is measured: the last cycle start, or the completion of the load or of the
warm reset (R75). -/
def CycleTimer.base (t : CycleTimer) : Nat := t.lastStart.getD t.origin

/-- A free cycle is due (R75). -/
def freeCycleDue (s : State) : Bool :=
  decide (s.timer.timing = .free ∧ s.timer.base + s.params.cyclePeriod ≤ s.clock)

/-- A further cycle is due (R77). -/
def lockedCycleDue (s : State) : Bool :=
  match s.timer.timing, s.timer.further with
  | .locked, t :: _ => decide (t ≤ s.clock)
  | _, _ => false

/-- A further cycle starts, and leaves the schedule (R77). -/
def startFurther (s : State) : State := startCycle { s with timer := { s.timer with further := s.timer.further.tail } }

/-- FREE_CYCLE_START (R75). -/
def execFreeCycleStart (after : Nat) (s : State) : Host.Outcome State Fault Refusal :=
  event after (fun t => if freeCycleDue t then startCycle t else t) s

/-- LOCKED_CYCLE_START (R77). -/
def execLockedCycleStart (after : Nat) (s : State) : Host.Outcome State Fault Refusal :=
  event after (fun t => if lockedCycleDue t then startFurther t else t) s

/-! ## Marks -/

/-- The interval of a mark taken now: from the reference, truncated to 10 ms (R76). -/
def markInterval (s : State) : Option Nat := s.timer.reference.map fun r => (s.clock - r) / 10 * 10

/-- The interval of a valid mark: 100 ms times MARK_MULTIPLIER to 10 s (R76). -/
def validInterval (s : State) : Option Nat :=
  match markInterval s with
  | some i => if 100 * s.params.markMultiplier ≤ i ∧ i ≤ 10000 then some i else none
  | none => none

/-- The further cycles of a mark taken at `now` with interval `i`, under multiplier `m` (R77). -/
def furtherCycles (now i m : Nat) : List Nat := (List.range' 1 (m - 1)).map fun j => now + j * i / m

/-- A valid mark that starts a cycle, in LOCKED timing or on entering lock (R76, R77). -/
def lockedMark (i : Nat) (s : State) : State :=
  startCycle { s with timer := { s.timer with
    timing := .locked, lockIn := 0, reference := some s.clock, interval := some i, deadline := some (s.clock + 2 * i),
    further := furtherCycles s.clock i s.params.markMultiplier } }

/-- The lock is lost: FREE timing, with the reference that is given, and MARK_LOST on all ports (R78). -/
def loseLock (reference : Option Nat) (s : State) : State :=
  notifyAll .markLost { s with timer := { s.timer.turned with reference := reference } }

/-- A mark on the watched input (R76 to R78). -/
def takeMark (s : State) : State :=
  match s.timer.timing, validInterval s with
  | .free, some i =>
    if s.timer.lockIn + 1 = 2 then lockedMark i s
    else { s with timer := { s.timer with lockIn := s.timer.lockIn + 1, reference := some s.clock } }
  | .free, none => { s with timer := { s.timer with lockIn := 0, reference := some s.clock } }
  | .locked, some i => lockedMark i s
  | .locked, none => loseLock (some s.clock) s

/-- The input is watched: CYCLE_MODE is LOCKED and the feed is active (R76). -/
def watches (s : State) (input : Feed) : Bool := decide (s.params.cycleMode = .locked ∧ s.activeFeed = input)

/-- The loss deadline is reached in LOCKED timing (R78). -/
def deadlineDue (s : State) : Bool :=
  match s.timer.timing, s.timer.deadline with
  | .locked, some d => decide (d ≤ s.clock)
  | _, _ => false

/-- MARK (R76 to R78). -/
def execMark (after : Nat) (input : Feed) (s : State) : Host.Outcome State Fault Refusal :=
  event after (fun t => if watches t input then takeMark t else t) s

/-- LOSS_DEADLINE (R78): the reference is kept. -/
def execLossDeadline (after : Nat) (s : State) : Host.Outcome State Fault Refusal :=
  event after (fun t => if deadlineDue t then loseLock t.timer.reference t else t) s

end Sys2Proof.Machine
end

