-- ==== Sys2Proof/Machine/Drips.lean ====
section
/-! DEFINITION. The Drip Monitor: accumulators and suspect levels (R137 to R139), zone records (R140 to R143), the decision
(R144) and the confirm window (R145, R146). -/

namespace Sys2Proof.Machine

open Sys2Proof

/-! ## Accumulators -/

/-- The suspect level judged from the accumulator, the threshold and the level before (R139). -/
def judgeLevel (threshold amount : Nat) (before : SuspectLevel) : SuspectLevel :=
  if 2 * threshold ≤ amount then .hard
  else if threshold ≤ amount then .suspect
  else if threshold ≤ 2 * amount then (if before = .none then .none else .suspect)
  else .none

/-- NONE, SUSPECT and HARD in rising order (R139); also the code of a level (R187). -/
def SuspectLevel.rank : SuspectLevel → Nat
  | .none => 0
  | .suspect => 1
  | .hard => 2

/-- A judged record entered, with BRANCH_SUSPECT where its level has risen (R139). -/
def enterJudged (b : BranchId) (before : SuspectLevel) (x : Accumulator) (s : State) : State :=
  if before.rank < x.level.rank then report .branchSuspect (.branch b) (some x.lastImbalance) (s.setDrip b x)
  else s.setDrip b x

/-- The accumulator after one report of an imbalance (R138, steps 2 to 4). -/
def accumulate (p : Params) (imbalance : Int) (amount : Nat) : Nat :=
  if (p.imbalanceTol : Int) < imbalance then
    min (amount + (imbalance - p.imbalanceTol).toNat) (4 * p.dripThreshold)
  else min (amount - p.dripDecay) (4 * p.dripThreshold)

/-- The imbalance of a branch as measured (R138). -/
def imbalanceOf (m : Measurement) : Int := (m.supplyFlow : Int) - (m.returnFlow : Int)

/-- The update of one branch on a good report of its segment (R138). -/
def dripUpdate (s : State) (b : BranchId) : State :=
  if (s.branch b).state.isExposed then
    let x := s.drip b
    let i := imbalanceOf (s.measure b)
    let a := accumulate s.params i x.amount
    enterJudged b x.level { amount := a, level := judgeLevel s.params.dripThreshold a x.level, lastImbalance := i } s
  else s

/-- A new DRIP_THRESHOLD acts on one record (R151). -/
def rejudge (s : State) (b : BranchId) : State :=
  let x := s.drip b
  let a := min x.amount (4 * s.params.dripThreshold)
  enterJudged b x.level { x with amount := a, level := judgeLevel s.params.dripThreshold a x.level } s

/-! ## Zones -/

/-- A zone record with both counts cleared in a new state (R141, R142). -/
def Zone.become (st : ZoneLevel) (z : Zone) : Zone := { z with state := st, rise := 0, dry := 0 }

/-- The table of R141: the counts moved by a report's level, before any step of the state. -/
def Zone.count (level : ZoneLevel) (z : Zone) : Zone :=
  match z.state, level with
  | .dry, .dry => { z with rise := 0 }
  | .dry, _ => { z with rise := z.rise + 1 }
  | .damp, .dry => { z with rise := 0, dry := z.dry + 1 }
  | .damp, .damp => { z with rise := 0, dry := 0 }
  | .damp, .wet => { z with rise := z.rise + 1, dry := 0 }
  | .wet, .dry => { z with dry := min (z.dry + 1) 20 }
  | .wet, _ => { z with dry := 0 }

/-- The zone level of a report taken in: at most one step, with its incident (R141). -/
def zoneIntake (z : SegId) (level : ZoneLevel) (s : State) : State :=
  let x := (s.zone z).count level
  match x.state with
  | .dry => if 3 ≤ x.rise then report .zoneDamp (.zone z) none (s.setZone z (x.become .damp)) else s.setZone z x
  | .damp =>
    if 3 ≤ x.rise then report .zoneWet (.zone z) none (s.setZone z (x.become .wet))
    else if 20 ≤ x.dry then s.setZone z (x.become .dry)
    else s.setZone z x
  | .wet => s.setZone z x

/-! ## The decision -/

/-- E: the exposed branches of a zone (R144). -/
def exposedOf (s : State) (z : SegId) : List BranchId := (zoneBranches z).filter fun b => (s.branch b).state.isExposed

/-- S: the exposed branches at SUSPECT or HARD (R144). -/
def suspectsOf (s : State) (z : SegId) : List BranchId :=
  (exposedOf s z).filter fun b => decide ((s.drip b).level ≠ .none)

/-- H: the exposed branches at HARD (R144). -/
def hardOf (s : State) (z : SegId) : List BranchId :=
  (exposedOf s z).filter fun b => decide ((s.drip b).level = .hard)

/-- The confirm timer at an evaluation that finds the zone WET and S empty (R145). -/
def confirmEvaluate (z : SegId) (s : State) : State :=
  if exposedOf s z = [] then stopConfirm z s
  else if (s.zone z).confirm = none then
    s.setZone z { s.zone z with confirm := some { remaining := Timer.start s.params.confirmWindow, running := true } }
  else s

/-- The decision of a zone at a good report of its segment (R144). -/
def decision (z : SegId) (s : State) : State :=
  match (s.zone z).state with
  | .dry => isolateAll .hardImbalance (hardOf s z) s
  | .damp => isolateAll .confirmedImbalance (suspectsOf s z) s
  | .wet =>
    if suspectsOf s z = [] then confirmEvaluate z s
    else isolateAll .confirmedImbalance (suspectsOf s z) (stopConfirm z s)

/-- Step 3 of a good segment report, in the order of R147. -/
def dripStep (z : SegId) (level : ZoneLevel) (s : State) : State :=
  decision z (zoneIntake z level ((zoneBranches z).foldl dripUpdate s))

/-- The confirm timer of a zone runs and has reached 0 (R145). -/
def confirmDue (s : State) (z : SegId) : Bool :=
  match (s.zone z).confirm with
  | some c => decide (c.remaining.steps = 0) && c.running
  | none => false

/-- The end of a confirm timer: absent, then the decision, and with no suspect the zone's policy (R146). -/
def confirmEnds (z : SegId) (s : State) : State :=
  let t := stopConfirm z s
  if (t.zone z).state = .wet ∧ suspectsOf t z = [] then
    if exposedOf t z = [] then t
    else match (t.zone z).policy with
      | .auto =>
        report .zoneIsolated (.zone z) (some (exposedOf t z).length) (isolateAll .zoneWet (exposedOf t z) t)
      | .report => report .zoneWet (.zone z) none t
  else decision z t

/-- CONFIRM_EXPIRY (R146). -/
def execConfirmExpiry (after : Nat) (z : SegId) (s : State) : Host.Outcome State Fault Refusal :=
  event after (fun t => if confirmDue t z then confirmEnds z t else t) s

/-! ## The panel's zone requests -/

/-- CLEAR_ZONE by the zone's state (R142). -/
def clearZone (z : SegId) : Handler := fun s =>
  match (s.zone z).state with
  | .dry => (Reply.plain .ok, s)
  | .damp => refuse .wrongState s
  | .wet =>
    if (s.segment z).link = .online ∧ 3 ≤ (s.zone z).dry then
      (Reply.plain .ok, stopConfirm z (s.setZone z ((s.zone z).become .dry)))
    else refuse .zoneWet s

/-- SET_ZONE_POLICY's check and effect (R143). -/
def setZonePolicy (code : Nat) (z : SegId) : Handler := fun s =>
  match zonePolicyOfCode code with
  | some p => (Reply.plain .ok, s.setZone z { s.zone z with policy := p })
  | none => refuse .badValue s

/-- CLEAR_ZONE (R142). -/
def execClearZone (p : Port) (body : List Byte) (s : State) : Host.Outcome State Fault Refusal :=
  request p 0x34 [1] [.sp] body (byZone (at1 body 0) clearZone) s

/-- SET_ZONE_POLICY (R143). -/
def execSetZonePolicy (p : Port) (body : List Byte) (s : State) : Host.Outcome State Fault Refusal :=
  request p 0x35 [2] [.sp] body (byZone (at1 body 0) (setZonePolicy (at1 body 1))) s

end Sys2Proof.Machine
end

