-- ==== Sys2Proof/Machine/Tuning.lean ====
section
/-! DEFINITION. The 30 tuning parameters as pure data: each one's value in the unit of R186, and the writing of one with
the saturation, rounding and coupling its owning chapter gives. SET_TUNING and the power-on load both write through
`Params.write` (R186, R191). -/

namespace Sys2Proof.Machine

open Sys2Proof

/-- The code of CYCLE_MODE, and of the timing in READ_STATUS (R185, R188). -/
def Timing.code : Timing → Nat
  | .free => 0
  | .locked => 1

/-- The code of a yes / no value (R185). -/
def boolCode (b : Bool) : Nat := if b then 1 else 0

/-- A parameter's value by its number in R186; 0 for a number outside 1 to 30, which no rule reads. -/
def Params.value (p : Params) : Nat → Int
  | 1 => p.scanInterval
  | 2 => p.proofFlow
  | 3 => p.primeWindow
  | 4 => p.retryLimit
  | 5 => p.primeReserve
  | 6 => p.cycleMode.code
  | 7 => p.cyclePeriod
  | 8 => p.markMultiplier
  | 9 => p.freezeLimit
  | 10 => p.deadband
  | 11 => boolCode p.convergenceFast
  | 12 => p.stepSlow
  | 13 => p.stepFast
  | 14 => p.leapThreshold
  | 15 => p.leapLimit
  | 16 => p.hotLimit
  | 17 => boolCode p.autoHandover
  | 18 => p.proofPressure
  | 19 => p.failPressure
  | 20 => p.failoverWindow
  | 21 => p.switchWindow
  | 22 => boolCode p.failoverEnable
  | 23 => p.preferredFeed.idx.val
  | 24 => p.imbalanceTol
  | 25 => p.dripThreshold
  | 26 => p.dripDecay
  | 27 => p.confirmWindow
  | 28 => p.isolateWindow
  | 29 => p.residualFlow
  | 30 => p.parkWindow
  | _ => 0

/-- A numeric parameter: the saturated value goes through `set`, and the flag says whether saturation occurred. -/
def numeric (lo hi : Nat) (v : Int) (set : Nat → Params) : Option (Params × Bool) :=
  some (set (saturate lo hi v), outOfRange lo hi v)

/-- A choice parameter: a code outside its list is refused. -/
def choice {α : Type} (v : Int) (codes : Nat → Option α) (set : α → Params) : Option (Params × Bool) :=
  if v < 0 then none else (codes v.toNat).map fun x => (set x, false)

/-- A CYCLE_MODE code (R80, R185). -/
def timingOfCode (n : Nat) : Option Timing :=
  if n = 0 then some .free else if n = 1 then some .locked else none

/-- PROOF_PRESSURE written: a FAIL_PRESSURE at or above the new value is lowered to 10 kPa below it (R134). -/
def Params.setProofPressure (p : Params) (x : Nat) : Params :=
  { p with proofPressure := x, failPressure := if x ≤ p.failPressure then x - 10 else p.failPressure }

/-- FAIL_PRESSURE written: a value at or above the PROOF_PRESSURE in force is saturated to 10 kPa below it (R134). -/
def Params.writeFailPressure (p : Params) (v : Int) : Option (Params × Bool) :=
  let x := saturate 20 500 v
  if p.proofPressure ≤ x then some ({ p with failPressure := p.proofPressure - 10 }, true)
  else some ({ p with failPressure := x }, outOfRange 20 500 v)

/-- Write a parameter by its number: the parameters after it, and whether the value was saturated; `none` for an unknown
number or a choice code outside its list (R186). Ranges: R24, R48, R71, R80, R101, R118, R134, R151, R170. -/
def Params.write (p : Params) (number : Nat) (v : Int) : Option (Params × Bool) :=
  match number with
  | 1 => numeric 50 1000 v fun x => { p with scanInterval := x }
  | 2 => numeric 10 500 v fun x => { p with proofFlow := x }
  | 3 => numeric 50 1200 v fun x => { p with primeWindow := x }
  | 4 => numeric 1 8 v fun x => { p with retryLimit := x }
  | 5 => numeric 0 500 v fun x => { p with primeReserve := x }
  | 6 => choice v timingOfCode fun x => { p with cycleMode := x }
  | 7 => numeric 100 2000 v fun x => { p with cyclePeriod := x / 10 * 10 }
  | 8 => numeric 1 12 v fun x => { p with markMultiplier := x }
  | 9 => numeric 10 600 v fun x => { p with freezeLimit := x }
  | 10 => numeric 0 100 v fun x => { p with deadband := x }
  | 11 => choice v boolOfCode fun x => { p with convergenceFast := x }
  | 12 => numeric 1 100 v fun x => { p with stepSlow := x }
  | 13 => numeric 1 200 v fun x => { p with stepFast := x }
  | 14 => numeric 50 2000 v fun x => { p with leapThreshold := x }
  | 15 => numeric 1 500 v fun x => { p with leapLimit := x }
  | 16 => numeric 300 900 v fun x => { p with hotLimit := x }
  | 17 => choice v boolOfCode fun x => { p with autoHandover := x }
  | 18 => numeric 50 600 v p.setProofPressure
  | 19 => p.writeFailPressure v
  | 20 => numeric 5 100 v fun x => { p with failoverWindow := x }
  | 21 => numeric 50 600 v fun x => { p with switchWindow := x }
  | 22 => choice v boolOfCode fun x => { p with failoverEnable := x }
  | 23 => choice v feedOfCode fun x => { p with preferredFeed := x }
  | 24 => numeric 0 200 v fun x => { p with imbalanceTol := x }
  | 25 => numeric 100 10000 v fun x => { p with dripThreshold := x }
  | 26 => numeric 1 100 v fun x => { p with dripDecay := x }
  | 27 => numeric 50 3000 v fun x => { p with confirmWindow := x }
  | 28 => numeric 100 1200 v fun x => { p with isolateWindow := x }
  | 29 => numeric 0 100 v fun x => { p with residualFlow := x }
  | 30 => numeric 100 3000 v fun x => { p with parkWindow := x }
  | _ => none

/-- The parameter numbers in ascending order (R186, R191). -/
def paramNumbers : List Nat := List.range' 1 30

/-- The parameters of a stored image, taken in ascending number, each against the values already taken; a choice code
outside its list leaves the default (R191). -/
def Params.load (values : Nat → Int) : Params :=
  paramNumbers.foldl (fun p n => match p.write n (values n) with
    | some (q, _) => q
    | none => p) Params.default

end Sys2Proof.Machine
end

