-- ==== Sys2Proof/Machine/Parameters.lean ====
section
/-! DEFINITION. SET_TUNING: a parameter written, what the new value does at once, and the answer with the value now in
force (R71, R80, R134, R151, R186). -/

namespace Sys2Proof.Machine

open Sys2Proof

/-- What a written parameter does in the request's own event; `old` holds the parameters before it. -/
def tuningEffect (number : Nat) (old : Params) (s : State) : State :=
  match number with
  | 6 => if old.cycleMode = s.params.cycleMode then s else { s with timer := s.timer.turned }
  | 9 => freezeEnds s
  | 20 => lowPressureEnds .b (lowPressureEnds .a s)
  | 25 => allBranches.foldl rejudge s
  | _ => s

/-- SET_TUNING's owning checks and effect (R186). -/
def setTuning (number : Nat) (v : Int) : Handler := fun s =>
  match s.params.write number v with
  | none => refuse .badValue s
  | some (p, clamped) =>
    ({ status := if clamped then .clamped else .ok, body := byte1 number ++ signed4 (p.value number) },
      tuningEffect number s.params { s with params := p })

/-- SET_TUNING (R186). -/
def execSetTuning (p : Port) (body : List Byte) (s : State) : Host.Outcome State Fault Refusal :=
  request p 0x1C [5] [.rm, .sp] body (setTuning (at1 body 0) (signedAt4 body 1)) s

end Sys2Proof.Machine
end

