-- ==== Sys2Proof/Machine/Ports.lean ====
section
/-! DEFINITION. The receive states of the link ports (R182), discarded frames (R183) and requests outside the catalogue
(R184). -/

namespace Sys2Proof.Machine

open Sys2Proof

/-- A port back in IDLE, sending nothing (R182). -/
def LinkPort.toIdle (x : LinkPort) : LinkPort := { x with rx := .idle, answer := none }

/-- The first byte of a frame at an IDLE port (R182). -/
def firstByte (p : Port) (b : Byte) (s : State) : State :=
  if (s.port p).rx = .idle then
    s.setPort p { s.port p with rx := if b = 0xA5 then .receiving else .discarding }
  else s

/-- A discarded frame has ended: the port is IDLE again, or still ANSWERING (R182, R183). -/
def discardFrame (p : Port) (s : State) : State :=
  if (s.port p).rx = .answering then s else s.setPort p (s.port p).toIdle

/-- The line has been quiet for 20 bit times in DISCARDING (R182). -/
def quietLine (p : Port) (s : State) : State :=
  if (s.port p).rx = .discarding then s.setPort p (s.port p).toIdle else s

/-- The answer has been sent and the line has been quiet for 20 bit times (R182). -/
def answerEnds (p : Port) (s : State) : State :=
  if (s.port p).rx = .answering then s.setPort p (s.port p).toIdle else s

/-- UNKNOWN_REQUEST: a good frame whose code is not in the catalogue, BUSY during the load like every good frame (R184). -/
def execUnknownRequest (p : Port) (code : Byte) (_body : List Byte) (s : State) : Host.Outcome State Fault Refusal :=
  .next <|
    if !s.takesFrame p then s
    else s.answering p code (Reply.plain (if s.loading then .busy else .unknownRequest))

/-- FRAME_DISCARDED (R183): it leaves no trace but the receive state, whatever the cause. -/
def execFrameDiscarded (after : Nat) (p : Port) (_cause : DiscardCause) (s : State) :
    Host.Outcome State Fault Refusal := lineEvent after (discardFrame p) s

/-- DISCARD_QUIET (R182). -/
def execDiscardQuiet (after : Nat) (p : Port) (s : State) : Host.Outcome State Fault Refusal :=
  lineEvent after (quietLine p) s

/-- ANSWER_END (R182). -/
def execAnswerEnd (after : Nat) (p : Port) (s : State) : Host.Outcome State Fault Refusal :=
  lineEvent after (answerEnds p) s

/-- FIRST_BYTE_OF_FRAME (R182). -/
def execFirstByteOfFrame (after : Nat) (p : Port) (b : Byte) (s : State) : Host.Outcome State Fault Refusal :=
  lineEvent after (firstByte p b) s

end Sys2Proof.Machine
end

