-- ==== Sys2Proof/Machine/Store.lean ====
section
/-! DEFINITION. The Store Controller: the configuration image (R190), saves (R193), the mark write queue (R194), and the
judgement of what a power-on load reads (R16, R191, R192). -/

namespace Sys2Proof.Machine

open Sys2Proof

/-! ## The configuration image (R190) -/

/-- The code of a restore authority (R185). -/
def Authority.code : Authority → Nat
  | .safetyOnly => 0
  | .safetyOrRack => 1

/-- The code of a TTL policy (R185). -/
def TtlPolicy.code : TtlPolicy → Nat
  | .refresh => 0
  | .fixed => 1
  | .none => 2

/-- The code of a zone policy (R185). -/
def ZonePolicy.code : ZonePolicy → Nat
  | .auto => 0
  | .report => 1

/-- The slot-tag byte of a saved entry; an entry without a tag has an open value there (notes/assumptions/11.md). -/
def tagByte (b : BranchId) (e : MapEntry) : Byte :=
  match e.slotTag with
  | some t => BitVec.ofNat 8 t.val
  | none => Config.absentTagByte b.val

/-- The ten bytes of a map entry: the valid flag and MAP_WRITE's nine (R190). -/
def entryBytes (b : BranchId) (e : MapEntry) : List Byte :=
  flag1 e.slotTag.isSome ++ [tagByte b e] ++ flag1 e.autoAdmit ++ byte1 e.authority.code ++ byte1 e.gain ++
    byte2 e.primePosition ++ byte1 e.ttlPolicy.code ++ byte2 e.ttlTime

/-- The 620 bytes from the format number through the last zone policy (R190). -/
def imageBody (s : State) : List Byte :=
  byte2 1 ++ byte2 620 ++ paramNumbers.flatMap (fun n => signed4 (s.params.value n)) ++
    allBranches.flatMap (fun b => entryBytes b (s.entry b)) ++
    allSegments.flatMap (fun z => byte1 (s.zone z).policy.code)

/-- The configuration image: the body and its CRC (R190). -/
def imageOf (s : State) : List Byte := imageBody s ++ byte2 (crc16 (imageBody s)).toNat

/-! ## Saves (R193) -/

/-- SAVE_CONFIG's owning check and effect: the image is computed in the request's own event (R193). -/
def saveConfig : Handler := fun s =>
  if s.store.save.isSome then refuse .busy s
  else (Reply.plain .ok,
    { s with store := { s.store with save := some { image := imageOf s, page := 0, failures := 0 } } })

/-- The bytes of one page of an image (R190, R193). -/
def pageOf (image : List Byte) (page : Nat) : List Byte := (image.drop (page * Config.pageBytes)).take Config.pageBytes

/-- The end of a page write attempt (R193). A save's page waits while a mark write is in progress. The last page leaves an
image whose CRC matches it; a save that ends before it leaves one whose CRC does not (R193; notes/assumptions/22.md). -/
def pageWriteEnds (acknowledged : Bool) (s : State) : State :=
  match s.store.save, s.store.write with
  | some v, none =>
    if acknowledged then
      let next := if v.page + 1 < Config.savePages then some { v with page := v.page + 1, failures := 0 } else none
      { s with store := { s.store with save := next }, imageTorn := s.imageTorn && next.isSome,
               eeprom := writeBytes s.eeprom (Config.imageBase + v.page * Config.pageBytes) (pageOf v.image v.page) }
    else if v.failures + 1 < 3 then
      { s with store := { s.store with save := some { v with failures := v.failures + 1 } } }
    else report .storeFault .nothing (some 1) { s with store := { s.store with save := none }, imageTorn := true }
  | _, _ => s

/-- SAVE_CONFIG (R193). -/
def execSaveConfig (p : Port) (body : List Byte) (s : State) : Host.Outcome State Fault Refusal :=
  request p 0x40 [0] [.rm] body saveConfig s

/-- SAVE_PAGE_WRITE_END (R193). -/
def execSavePageWriteEnd (after : Nat) (acknowledged : Bool) (s : State) : Host.Outcome State Fault Refusal :=
  event after (pageWriteEnds acknowledged) s

/-! ## The mark write queue (R194) -/

/-- The two bytes of a mark entry (R190). -/
def markBytes (value : Bool) : List Byte := if value then [0x01, 0xFE] else [0x00, 0xFF]

/-- The head of the queue starts to be written, where nothing bars it (R194). -/
def startMarkWrite (s : State) : State :=
  match s.store.save, s.store.retry, s.store.write, s.store.queue with
  | none, none, none, e :: _ =>
    { s with store := { s.store with write := some { branch := e.branch, value := e.value, failures := 0, replaced := false } } }
  | _, _, _, _ => s

/-- The queue after a successful write: the head is removed, unless its value was replaced during the write (R194). -/
def queueAfterWrite (w : MarkWrite) (queue : List MarkEntry) : List MarkEntry := if w.replaced then queue else queue.tail

/-- The end of a mark write attempt (R194). -/
def markWriteEnds (acknowledged : Bool) (s : State) : State :=
  match s.store.write with
  | some w =>
    if acknowledged then
      { s with store := { s.store with write := none, queue := queueAfterWrite w s.store.queue },
               eeprom := writeBytes s.eeprom (Config.marksBase + 2 * w.branch.val) (markBytes w.value) }
    else if w.failures + 1 < 3 then
      { s with store := { s.store with write := some { w with failures := w.failures + 1 } } }
    else report .storeFault .nothing (some 2) { s with store := { s.store with write := none, retry := some (Timer.start 10) } }
  | none => s

/-- The end of a retry wait: the head is written again, after a save that runs (R194). -/
def markRetryEnds (s : State) : State :=
  if isOver s.store.retry then startMarkWrite { s with store := { s.store with retry := none } } else s

/-- MARK_WRITE_START (R194). -/
def execMarkWriteStart (after : Nat) (s : State) : Host.Outcome State Fault Refusal := event after startMarkWrite s

/-- MARK_WRITE_END (R194). -/
def execMarkWriteEnd (after : Nat) (acknowledged : Bool) (s : State) : Host.Outcome State Fault Refusal :=
  event after (markWriteEnds acknowledged) s

/-- MARK_RETRY_EXPIRY (R194). -/
def execMarkRetryExpiry (after : Nat) (s : State) : Host.Outcome State Fault Refusal := event after markRetryEnds s

/-! ## The power-on load (R16, R191, R192) -/

/-- The image as stored. -/
def storedImage (s : State) : List Byte := readBytes s.eeprom Config.imageBase Config.imageBytes

/-- A good image by its bytes: format number 1, length 620, matching CRC (R191). -/
def goodImage (image : List Byte) : Bool :=
  at2 image 0 == 1 && at2 image 2 == 620 && (crc16 (image.take 620)).toNat == at2 image 620

/-- Where the entry of a branch stands in the image (R190). -/
def entryPlace (b : BranchId) : Nat := 124 + 10 * b.val

/-- The entry of a branch as stored: valid and within R9's ranges, or none (R16, R191). -/
def storedEntry (image : List Byte) (b : BranchId) : Option MapEntry :=
  if at1 image (entryPlace b) = 1 then (entryOfBytes image (entryPlace b + 1)).map (·.1) else none

/-- One entry of the load: an entry not taken as valid holds the defaults, and a tag that an earlier valid entry carries is
reported (R16, R191). -/
def loadEntry (image : List Byte) (s : State) (b : BranchId) : State :=
  match storedEntry image b with
  | none => s.setEntry b MapEntry.default
  | some e =>
    match e.slotTag with
    | none => s.setEntry b MapEntry.default
    | some tag =>
      if allBranches.any fun c => decide (c < b ∧ (s.entry c).slotTag = some tag) then
        report .mapDuplicate (.branch b) (some tag.val) (s.setEntry b MapEntry.default)
      else s.setEntry b e

/-- The zone policy as stored; outside its codes it loads as AUTO (R191). -/
def storedPolicy (image : List Byte) (z : SegId) : ZonePolicy := (zonePolicyOfCode (at1 image (604 + z.val))).getD .auto

/-- The zone policies of an image. -/
def loadPolicies (image : List Byte) (s : State) : State :=
  { s with zones := mapTable (fun z x => { x with policy := storedPolicy image z }) s.zones }

/-- A good image loaded: the parameters, the map entries in ascending branch index, the zone policies (R191). -/
def loadImage (image : List Byte) (s : State) : State :=
  loadPolicies image
    (allBranches.foldl (loadEntry image)
      { s with params := Params.load fun n => signedAt4 image (4 + 4 * (n - 1)) })

/-- The defaults of a bad, blank or unreadable image, with STORE_INVALID (R191). -/
def loadDefaults (s : State) : State :=
  report .storeInvalid .nothing none
    { s with params := Params.default, map := Vector.replicate 48 MapEntry.default,
             zones := mapTable (fun _ x => { x with policy := .auto }) s.zones }

/-- The configuration image judged and loaded: bad where it cannot be read, and where a save has ended before its completion
(R191, R193). -/
def loadStore (imageRead : Bool) (s : State) : State :=
  if imageRead && !s.imageTorn && goodImage (storedImage s) then loadImage (storedImage s) s else loadDefaults s

/-- A mark entry read as set: any pair but 0x00, 0xFF and 0xFF, 0xFF (R192). -/
def readsAsSet (mark complement : Byte) : Bool := !(complement == 0xFF && (mark == 0x00 || mark == 0xFF))

/-- A branch's mark as the load reads it; an unreadable area reads as set (R192). -/
def storedMark (eeprom : List Host.Cell) (marksRead : Bool) (b : BranchId) : Bool :=
  !marksRead ||
    readsAsSet (readByte eeprom (Config.marksBase + 2 * b.val)) (readByte eeprom (Config.marksBase + 2 * b.val + 1))

end Sys2Proof.Machine
end

