-- ==== Sys2Proof/Machine/Reads.lean ====
section
/-! DEFINITION. The read requests and their answer records byte by byte (R187 to R189), the notice requests (R178, R179),
and ACK_INCIDENT (R175). -/

namespace Sys2Proof.Machine

open Sys2Proof

/-! ## Codes (R187, R188) -/

def Feedback.code : Feedback → Nat
  | .opened => 0
  | .closed => 1
  | .moving => 2

def Valve.code : Valve → Nat
  | .opened => 0
  | .closed => 1

def LinkState.code : LinkState → Nat
  | .online => 0
  | .missing => 1
  | .stale => 2

def ZoneLevel.code : ZoneLevel → Nat
  | .dry => 0
  | .damp => 1
  | .wet => 2

def BranchState.code : BranchState → Nat
  | .unmapped => 0
  | .vacant => 1
  | .priming => 2
  | .backoff => 3
  | .noflow => 4
  | .flowing => 5
  | .setback => 6
  | .pinned => 7
  | .isolating => 8
  | .isolated => 9
  | .isolateFault => 10

def SubPhase.code : SubPhase → Nat
  | .supplyClosing => 0
  | .returnClosing => 1

def Mode.code : Mode → Nat
  | .run => 0
  | .hold => 1
  | .safe => 2
  | .parking => 3
  | .parked => 4

def Fit.code : Fit → Nat
  | .floorMode => 0
  | .unsqueezed => 1
  | .waterFill => 2
  | .breach => 3

def LeasePhase.code : LeasePhase → Nat
  | .bound => 1
  | .renewDue => 2
  | .expiring => 3
  | .lapsed => 4

def HandoverResult.code : HandoverResult → Nat
  | .started => 0
  | .notActive => 1
  | .disabled => 2
  | .locked => 3
  | .switchInFlight => 4
  | .mode => 5
  | .standbyFailed => 6
  | .standbyLease => 7

def SwitchPhase.code : SwitchPhase → Nat
  | .opening => 0
  | .closingOld => 1

def Requester.code : Requester → Nat
  | .rm => 0
  | .ua => 1
  | .ub => 2
  | .handover => 3

/-- A kind's number in the order of R173's table (R189). -/
def Kind.code : Kind → Nat
  | .branchSuspect => 1
  | .branchIsolated => 2
  | .isolateFault => 3
  | .branchHot => 4
  | .primeExhausted => 5
  | .mapDuplicate => 6
  | .zoneDamp => 7
  | .zoneWet => 8
  | .zoneIsolated => 9
  | .segmentLost => 10
  | .feedFailover => 11
  | .switchFailed => 12
  | .inletStuck => 13
  | .leaseLapsed => 14
  | .headLost => 15
  | .bothFeedsFailed => 16
  | .budgetBreach => 17
  | .safeEntered => 18
  | .parkIncomplete => 19
  | .storeInvalid => 20
  | .storeFault => 21
  | .saveAborted => 22

/-- Bits packed from bit 0 up. -/
def packBits : List Bool → Nat
  | [] => 0
  | b :: rest => boolCode b + 2 * packBits rest

/-- An absent field is sent as 0 (R187). -/
def orZero (x : Option Nat) : Nat := x.getD 0

/-- A time in steps of 100 ms; an absent one is sent as 0 (R187). -/
def stepsOrZero (x : Option Timer) : Nat := orZero (x.map (·.steps))

/-- An outlet temperature; FAULT is sent as 0xFFFF (R187). -/
def temperatureBytes (t : Option Nat) : List Byte := byte2 (t.getD 0xFFFF)

/-! ## READ_BRANCH (R187) -/

/-- Bytes 0 to 7: the index and the map entry. -/
def entryRecord (b : BranchId) (e : MapEntry) : List Byte :=
  byte1 b.val ++
  byte1 (packBits [e.slotTag.isSome, e.autoAdmit, decide (e.authority = .safetyOrRack)] + 8 * e.ttlPolicy.code) ++
  byte1 (orZero (e.slotTag.map (·.val))) ++ byte1 e.gain ++ byte2 e.primePosition ++ byte2 e.ttlTime

/-- Bytes 8 to 24: the status record. R187 has one bit, bit 4 of byte 11, for the isolation fields, of which R36 makes the
reason present in all three isolation states and the sub-phase in ISOLATING alone: the model sets the bit where the reason
is present (DESIGN CHOICE, notes/assumptions/23.md). -/
def statusRecord (x : Branch) : List Byte :=
  byte1 x.state.code ++ byte1 x.attempts ++ byte1 x.proof ++
  byte1 (packBits [x.timer.isSome, x.ttl.isSome, x.pin.isSome, x.target.isSome, x.reason.isSome, x.isolationMark, x.hot]) ++
  byte2 (stepsOrZero x.timer) ++ byte2 (stepsOrZero x.ttl) ++ byte2 (orZero x.pin) ++ byte2 (orZero x.target) ++ byte2 x.supply ++
  byte1 x.ret.code ++ byte1 (orZero (x.subPhase.map SubPhase.code)) ++ byte1 (orZero (x.reason.map IsolationReason.code))

/-- The five measurement fields of a branch: flows, temperature, feedbacks. -/
def measureRecord (m : Measurement) : List Byte :=
  byte2 m.supplyFlow ++ byte2 m.returnFlow ++ temperatureBytes m.temperature ++ byte2 m.supplyFeedback ++
    byte1 (Feedback.code m.returnFeedback)

/-- Bytes 35 to 39: the accumulator record. -/
def dripRecord (a : Accumulator) : List Byte := byte2 a.amount ++ byte1 a.level.rank ++ signed2 a.lastImbalance

/-- The branch read record of 40 bytes (R187). -/
def branchRecord (s : State) (b : BranchId) : List Byte :=
  entryRecord b (s.entry b) ++ statusRecord (s.branch b) ++ measureRecord (s.measure b) ++
    byte1 (s.segment (zoneOf b)).link.code ++ dripRecord (s.drip b)

/-! ## READ_PLAN, READ_SEGMENT, READ_FEEDS, READ_LEASES (R187) -/

/-- One copy of a plan entry. -/
def planBytes (e : PlanEntry) : List Byte := byte2 e.demand ++ byte2 e.floor ++ byte2 e.cap ++ byte1 e.weight

/-- The answer to READ_PLAN. -/
def planRecord (s : State) (b : BranchId) : List Byte :=
  byte1 b.val ++ byte1 (s.branch b).state.code ++ planBytes (s.pendingPlan b) ++ planBytes (s.activePlan b)

/-- The confirm timer: 0 absent, 1 running, 2 paused, and its remaining time. -/
def confirmBytes (c : Option ConfirmTimer) : List Byte :=
  match c with
  | none => byte1 0 ++ byte2 0
  | some t => byte1 (if t.running then 1 else 2) ++ byte2 t.remaining.steps

/-- A zone record. -/
def zoneRecord (z : Zone) : List Byte :=
  byte1 (ZoneLevel.code z.state) ++ byte1 z.rise ++ byte1 z.dry ++ confirmBytes z.confirm ++ byte1 z.policy.code

/-- The answer to READ_SEGMENT. -/
def segmentAnswer (s : State) (z : SegId) : List Byte :=
  let x := s.segment z
  byte1 z.val ++ byte1 x.link.code ++ byte1 x.misses ++ byte1 (ZoneLevel.code x.lastLevel) ++
    (zoneBranches z).flatMap (fun b => measureRecord (s.measure b)) ++ zoneRecord (s.zone z)

/-- A feed record. -/
def feedRecord (f : FeedRecord) : List Byte :=
  byte1 f.inlet.code ++ flag1 f.failed ++ flag1 f.lowTimer.isSome ++ byte2 (stepsOrZero f.lowTimer) ++ byte1 f.proof

/-- The switch record, or zeros. -/
def switchBytes (w : Option Switch) : List Byte :=
  match w with
  | none => List.replicate 7 0
  | some w =>
    byte1 1 ++ byte1 w.target.idx.val ++ byte1 w.origin.idx.val ++ byte1 w.phase.code ++ byte2 w.window.steps ++
      byte1 w.requester.code

/-- The answer to READ_FEEDS. -/
def feedsAnswer (s : State) : List Byte :=
  feedRecord (s.feed .a) ++ feedRecord (s.feed .b) ++ byte1 s.activeFeed.idx.val ++ switchBytes s.switch ++
    flag1 s.startup.isSome ++ byte2 (stepsOrZero s.startup) ++ flag1 s.bothOpen ++ flag1 s.feedLock ++
    flag1 s.params.failoverEnable ++ byte2 s.params.proofPressure ++ byte2 s.params.failPressure ++
    byte2 s.head.pressureA ++ byte2 s.head.pressureB ++ byte1 (Feedback.code s.head.inletA) ++
    byte1 (Feedback.code s.head.inletB) ++ byte1 s.head.link.code ++ byte1 s.head.misses

/-- The time left to a lease's next mark; 0 in LAPSED (R117, R187). -/
def Lease.toNextMark (l : Lease) : Nat :=
  match l.phase with
  | .bound => l.t1 - l.age.steps
  | .renewDue => l.t2 - l.age.steps
  | .expiring => l.duration - l.age.steps
  | .lapsed => 0

/-- A lease record; NONE is sent as zeros. -/
def leaseBytes (l : Option Lease) : List Byte :=
  match l with
  | none => List.replicate 23 0
  | some l =>
    byte1 l.phase.code ++ byte2 l.budget ++ byte4 l.duration ++ byte4 l.t1 ++ byte4 l.t2 ++ byte4 l.age.steps ++
      byte4 l.toNextMark

/-- The handover record, or zeros. -/
def handoverBytes (h : Option Handover) : List Byte :=
  match h with
  | none => List.replicate 7 0
  | some h => byte1 1 ++ byte1 h.feed.idx.val ++ byte4 h.uptime ++ byte1 h.result.code

/-- The answer to READ_LEASES. -/
def leasesAnswer (s : State) : List Byte :=
  leaseBytes (s.lease .a) ++ leaseBytes (s.lease .b) ++ byte1 s.activeFeed.idx.val ++
    flag1 (budgetInForce s).isSome ++ byte2 (orZero (budgetInForce s)) ++ flag1 s.params.autoHandover ++
    handoverBytes s.handover

/-! ## READ_STATUS (R188) -/

/-- Bytes 5 to 11: fault hold. -/
def faultBytes (h : Option FaultHold) : List Byte :=
  match h with
  | none => List.replicate 7 0
  | some h =>
    (match h.first with
      | .isolateFault b => byte1 1 ++ byte1 b.val
      | .bothFeedsFailed => byte1 2 ++ byte1 0) ++ byte1 h.count ++ byte4 h.began

/-- Bytes 12 to 14: the freeze holder and the time to its expiry. -/
def freezeBytes (p : Params) (f : Option Freeze) : List Byte :=
  match f with
  | none => List.replicate 3 0
  | some f => byte1 (match f.holder with | .rm => 1 | .sp => 2) ++ byte2 (p.freezeLimit - f.age.steps)

/-- Bytes 15 to 19: the park record. -/
def parkBytes (p : Option Park) : List Byte :=
  match p with
  | none => List.replicate 5 0
  | some p => byte1 1 ++ byte2 p.window.steps ++ byte2 p.confirmed.toNat

/-- Bytes 26 to 60: the cycle summary. -/
def summaryBytes (c : CycleSummary) : List Byte :=
  byte1 (packBits [c.cycleTime.isSome, c.budget.isSome]) ++ byte4 (orZero c.cycleTime) ++ byte1 c.mode.code ++
    byte1 c.feed.idx.val ++ byte1 c.fit.code ++ byte2 (orZero (c.budget.map (·.inForce))) ++
    byte2 (orZero (c.budget.map (·.primingReserve))) ++ byte4 (orZero (c.budget.map (·.pinnedConsumption))) ++
    byte2 (orZero (c.budget.map (·.available))) ++ byte1 c.allotting ++ byte1 c.priming ++ byte1 c.pinned ++
    byte4 c.demand ++ byte4 c.floors ++ byte4 c.targets ++ byte1 c.passes ++ byte1 c.hotBranches

/-- The answer to READ_STATUS, 63 bytes. -/
def statusAnswer (s : State) : List Byte :=
  byte4 s.uptime ++ byte1 s.mode.code ++ faultBytes s.faultHold ++ freezeBytes s.params s.freeze ++ parkBytes s.park ++
    byte1 s.params.cycleMode.code ++ byte1 s.timer.timing.code ++ byte1 s.timer.lockIn ++
    byte2 (orZero s.timer.interval) ++ byte1 s.activeFeed.idx.val ++ summaryBytes s.summary ++
    flag1 s.store.save.isSome ++ byte1 s.store.queue.length

/-! ## READ_INCIDENTS (R176, R189) -/

/-- The presence bits and the subject byte of a record, without the detail's bit. -/
def subjectBytes (x : Subject) : Nat × Nat :=
  match x with
  | .nothing => (0, 0)
  | .branch b => (1, b.val)
  | .zone z => (2, z.val)
  | .feed f => (4, f.idx.val)

/-- An incident record of 17 bytes. -/
def incidentRecord (r : Incident) : List Byte :=
  byte2 r.sequence ++ byte1 r.kind.code ++ byte1 ((subjectBytes r.subject).1 + 8 * boolCode r.detail.isSome) ++
    byte1 (subjectBytes r.subject).2 ++ byte4 r.firstTime ++ byte4 r.lastTime ++ byte2 r.count ++
    signed2 (r.detail.getD 0)

/-- The answer to READ_INCIDENTS from a start position: up to four records. -/
def incidentsAnswer (s : State) (start : Nat) : List Byte :=
  byte1 s.incidents.records.length ++ byte1 s.incidents.overflow ++ byte2 s.incidents.next ++
    ((s.incidents.records.drop start).take 4).flatMap incidentRecord

/-! ## The requests -/

/-- A read: OK with its body, and no state changed (R187). -/
def reading (f : State → List Byte) : Handler := fun s => ({ status := .ok, body := f s }, s)

/-- READ_STATUS (R188). -/
def execReadStatus (p : Port) (body : List Byte) (s : State) : Host.Outcome State Fault Refusal :=
  request p 0x01 [0] anyPort body (reading statusAnswer) s

/-- READ_BRANCH (R187). -/
def execReadBranch (p : Port) (body : List Byte) (s : State) : Host.Outcome State Fault Refusal :=
  request p 0x02 [2] anyPort body (byForm (at1 body 0) (at1 body 1) fun b => reading fun t => branchRecord t b) s

/-- READ_SEGMENT (R31). -/
def execReadSegment (p : Port) (body : List Byte) (s : State) : Host.Outcome State Fault Refusal :=
  request p 0x03 [1] anyPort body (byZone (at1 body 0) fun z => reading fun t => segmentAnswer t z) s

/-- READ_FEEDS (R122). -/
def execReadFeeds (p : Port) (body : List Byte) (s : State) : Host.Outcome State Fault Refusal :=
  request p 0x04 [0] anyPort body (reading feedsAnswer) s

/-- READ_LEASES (R117). -/
def execReadLeases (p : Port) (body : List Byte) (s : State) : Host.Outcome State Fault Refusal :=
  request p 0x05 [0] anyPort body (reading leasesAnswer) s

/-- READ_PLAN (R64). -/
def execReadPlan (p : Port) (body : List Byte) (s : State) : Host.Outcome State Fault Refusal :=
  request p 0x06 [2] anyPort body (byForm (at1 body 0) (at1 body 1) fun b => reading fun t => planRecord t b) s

/-- READ_INCIDENTS (R176). -/
def execReadIncidents (p : Port) (body : List Byte) (s : State) : Host.Outcome State Fault Refusal :=
  request p 0x07 [1] anyPort body (reading fun t => incidentsAnswer t (at1 body 0)) s

/-- READ_NOTICES: the flags and the mask into the answer, and the flags cleared (R179). -/
def readNotices (p : Port) : Handler := fun s =>
  ({ status := .ok, body := byte2 (s.port p).flags.toNat ++ byte2 (s.port p).mask.toNat },
    s.setPort p { s.port p with flags := 0 })

/-- SET_NOTICE_MASK: a set bit 10 to 15 is refused; else the mask is replaced whole (R178, R185). -/
def setNoticeMask (p : Port) (enables : Nat) : Handler := fun s =>
  if 1024 ≤ enables then refuse .badValue s
  else (Reply.plain .ok, s.setPort p { s.port p with mask := BitVec.ofNat 10 enables })

/-- ACK_INCIDENT (R175). -/
def ackIncident (sequence : Nat) : Handler := fun s =>
  if s.incidents.records.any (fun r => r.sequence == sequence) then
    (Reply.plain .ok, { s with incidents := s.incidents.acknowledge sequence })
  else refuse .notFound s

/-- READ_NOTICES (R179). -/
def execReadNotices (p : Port) (body : List Byte) (s : State) : Host.Outcome State Fault Refusal :=
  request p 0x08 [0] anyPort body (readNotices p) s

/-- SET_NOTICE_MASK (R178). -/
def execSetNoticeMask (p : Port) (body : List Byte) (s : State) : Host.Outcome State Fault Refusal :=
  request p 0x09 [2] anyPort body (setNoticeMask p (at2 body 0)) s

/-- ACK_INCIDENT (R175). -/
def execAckIncident (p : Port) (body : List Byte) (s : State) : Host.Outcome State Fault Refusal :=
  request p 0x3C [2] [.rm, .sp] body (ackIncident (at2 body 0)) s

end Sys2Proof.Machine
end

