-- ==== Sys2Proof/Machine/Scan.lean ====
section
/-! DEFINITION. The Field Scanner: rounds and exchanges (R19, R20, R23), reports entered and handled (R21, R22, R25 to R27),
link states (R28 to R30), and the judgement of the branches on a report (R43, R44, R157). -/

namespace Sys2Proof.Machine

open Sys2Proof

/-! ## Commands and exchanges -/

/-- The address of the head module (R18). -/
def headModule : ModuleId := 16

/-- The address of a segment module (R18). -/
def segmentModule (z : SegId) : ModuleId := ⟨z.val, by omega⟩

/-- A branch's two commanded outputs. -/
def outputs (s : State) (b : BranchId) : Nat × Valve := ((s.branch b).supply, (s.branch b).ret)

/-- The command to a module, built from the records as they stand (R20). -/
def commandFor (s : State) (m : ModuleId) : ModuleCommand :=
  if h : m.val < 16 then
    let z : SegId := ⟨m.val, h⟩
    .segment (outputs s (branchAt z 0)) (outputs s (branchAt z 1)) (outputs s (branchAt z 2))
  else .head (s.feed .a).inlet (s.feed .b).inlet

/-- An exchange begins: one more on the exchange number, and the command sent (R19, R20). -/
def startExchange (m : ModuleId) (s : State) : State :=
  { s with scanner := { s.scanner with
      number := s.scanner.number + 1,
      exchange := some { module := m, command := commandFor s m, began := s.clock },
      next := m.val + 1 } }

/-- A round starts now with segment module 0, under the SCAN_INTERVAL in force (R23, R24). -/
def startRound (s : State) : State :=
  startExchange 0
    { s with scanner := { s.scanner with roundStart := s.clock, roundInterval := s.params.scanInterval } }

/-- The scanner waits for its next round, and the interval has elapsed or the round has overrun (R23). -/
def roundDue (s : State) : Bool :=
  decide (s.scanner.exchange = none ∧ 17 ≤ s.scanner.next ∧ s.scanner.roundStart + s.scanner.roundInterval ≤ s.clock)

/-- ROUND_START (R23). -/
def execRoundStart (after : Nat) (s : State) : Host.Outcome State Fault Refusal :=
  event after (fun t => if roundDue t then startRound t else t) s

/-- The next module of the round is served (R19, R23). -/
def nextExchange (s : State) : State :=
  if h : s.scanner.next < 17 then
    if s.scanner.exchange = none then startExchange ⟨s.scanner.next, h⟩ s else s
  else s

/-- EXCHANGE_START (R19). -/
def execExchangeStart (after : Nat) (s : State) : Host.Outcome State Fault Refusal := event after nextExchange s

/-- The answer window of an exchange has closed: 3 ms after the end of the command frame, which together are taken as 4 ms
from the exchange's beginning (R19; notes/assumptions/3.md). -/
def Exchange.closed (clock : Nat) (e : Exchange) : Bool := decide (e.began + 4 ≤ clock)

/-- The exchange in progress ends. -/
def endExchange (s : State) : State := { s with scanner := { s.scanner with exchange := none } }

/-! ## Link state -/

/-- A module's link state and consecutive misses after a miss (R28). -/
def afterMiss (link : LinkState) (misses : Nat) : LinkState × Nat :=
  if link = .stale ∨ 2 ≤ misses then (.stale, 3) else (.missing, misses + 1)

/-- A running confirm timer paused (R150). -/
def Zone.pause (z : Zone) : Zone := { z with confirm := z.confirm.map fun c => { c with running := false } }

/-- A paused confirm timer resumed (R150). -/
def Zone.resume (z : Zone) : Zone := { z with confirm := z.confirm.map fun c => { c with running := true } }

/-- A segment becomes STALE: its zone's confirm timer is paused and SEGMENT_LOST is reported (R30, R150). -/
def segmentLost (z : SegId) (s : State) : State :=
  report .segmentLost (.zone z) none (s.setZone z (s.zone z).pause)

/-- A miss of a segment module (R28). -/
def missSegment (z : SegId) (s : State) : State :=
  let x := s.segment z
  let l := afterMiss x.link x.misses
  let t := s.setSegment z { x with link := l.1, misses := l.2 }
  if l.1 = .stale ∧ x.link ≠ .stale then segmentLost z t else t

/-- The head module becomes STALE: both low-pressure timers stop and HEAD_LOST is reported (R30, R129). -/
def headLost (s : State) : State :=
  let t := s.setFeed .a { s.feed .a with lowTimer := none }
  report .headLost .nothing none (t.setFeed .b { t.feed .b with lowTimer := none })

/-- A miss of the head module (R28). -/
def missHead (s : State) : State :=
  let l := afterMiss s.head.link s.head.misses
  let t := { s with head := { s.head with link := l.1, misses := l.2 } }
  if l.1 = .stale ∧ s.head.link ≠ .stale then headLost t else t

/-- A miss of a module (R28). -/
def missModule (m : ModuleId) (s : State) : State :=
  if h : m.val < 16 then missSegment ⟨m.val, h⟩ s else missHead s

/-- The exchange in progress, if any, ends as a miss (R19, R21). -/
def missExchange (s : State) : State :=
  match s.scanner.exchange with
  | some e => missModule e.module (endExchange s)
  | none => s

/-- EXCHANGE_MISS (R19). -/
def execExchangeMiss (after : Nat) (s : State) : Host.Outcome State Fault Refusal := event after missExchange s

/-! ## Good reports -/

/-- The values of one position saturated into the ranges of R22. -/
def entered (r : PositionReport) : Measurement :=
  { supplyFlow := saturate 0 3000 r.supplyFlow, returnFlow := saturate 0 3000 r.returnFlow,
    temperature := r.temperature.map (saturate 0 1000), supplyFeedback := saturate 0 1000 r.supplyFeedback,
    returnFeedback := r.returnFeedback }

/-- Step 1 of a good segment report: the values entered whole, and the module ONLINE, which resumes a paused confirm timer
(R25, R26, R28, R150). -/
def enterSegment (z : SegId) (r : SegmentReport) (s : State) : State :=
  let t := s.setMeasure (branchAt z 0) (entered r.first)
  let t := t.setMeasure (branchAt z 1) (entered r.second)
  let t := t.setMeasure (branchAt z 2) (entered r.third)
  let t := t.setSegment z { link := .online, misses := 0, lastLevel := r.level }
  t.setZone z (t.zone z).resume

/-- A branch in PRIMING judged for its proof (R43, R44). -/
def primingJudgement (b : BranchId) (s : State) : State :=
  let x := s.branch b
  if s.params.proofFlow ≤ (s.measure b).returnFlow then
    if 3 ≤ x.proof + 1 then enter b (x.toFlowing (s.entry b) (s.entry b).primePosition) s
    else s.setBranch b { x with proof := x.proof + 1 }
  else s.setBranch b { x with proof := 0 }

/-- Step 2 of a good segment report for one branch, under the state it holds when the step reaches it (R26). -/
def judgeBranch (s : State) (b : BranchId) : State :=
  match (s.branch b).state with
  | .priming => primingJudgement b s
  | .isolating => isolationProgress b s
  | _ => s

/-- The handling of a good segment report, in the order of R26. -/
def handleSegment (z : SegId) (r : SegmentReport) (s : State) : State :=
  parkTest z (dripStep z r.level ((zoneBranches z).foldl judgeBranch (enterSegment z r s)))

/-- A report from a module with an exchange number is good for an exchange: the module was addressed, the number echoes the
command's, and the answer window has not closed (R21). -/
def goodFor (m : ModuleId) (number : Byte) (e : Exchange) (s : State) : Bool :=
  decide (e.module = m ∧ number = s.scanner.number) && !e.closed s.clock

/-- A segment report: good for the exchange in progress, or a miss of it, and discarded where no exchange is in progress
(R19, R21, R33). -/
def takeSegment (z : SegId) (r : SegmentReport) (s : State) : State :=
  match s.scanner.exchange with
  | some e => if goodFor (segmentModule z) r.number e s then handleSegment z r (endExchange s) else missExchange s
  | none => s

/-- Step 1 of a good head report (R25, R27). -/
def enterHead (r : HeadReport) (s : State) : State :=
  { s with head :=
      { pressureA := saturate 0 1000 r.pressureA, pressureB := saturate 0 1000 r.pressureB, inletA := r.inletA,
        inletB := r.inletB, link := .online, misses := 0 } }

/-- The handling of a good head report (R27). -/
def handleHead (r : HeadReport) (s : State) : State := feedJudgement (enterHead r s)

/-- A head report: good for the exchange in progress, or a miss of it, and discarded where no exchange is in progress (R19,
R21, R33). -/
def takeHead (r : HeadReport) (s : State) : State :=
  match s.scanner.exchange with
  | some e => if goodFor headModule r.number e s then handleHead r (endExchange s) else missExchange s
  | none => s

/-- SEGMENT_REPORT (R26). -/
def execSegmentReport (after : Nat) (z : SegId) (r : SegmentReport) (s : State) : Host.Outcome State Fault Refusal :=
  event after (takeSegment z r) s

/-- HEAD_REPORT (R27). -/
def execHeadReport (after : Nat) (r : HeadReport) (s : State) : Host.Outcome State Fault Refusal :=
  event after (takeHead r) s

end Sys2Proof.Machine
end

