-- ==== Sys2Proof/Machine/Reset.lean ====
section
/-! DEFINITION. The two resets: power-on and the completion of its store load (R61, R135, R181, R191, R192), and the warm
reset, taken and completed (R33, R62, R83, R104, R136, R154, R171, R181, R195). -/

namespace Sys2Proof.Machine

open Sys2Proof

/-! ## The power-on load -/

/-- The start state of one branch, without a notice (R61). -/
def startBranch (marksRead : Bool) (s : State) (b : BranchId) : State :=
  if storedMark s.eeprom marksRead b then takeOrder .stored b s
  else if (s.entry b).slotTag = none then s.setBranch b Branch.initial
  else if (s.entry b).autoAdmit then
    s.setBranch b (Branch.initial.toPriming (s.entry b) s.params.primeWindow 1)
  else s.setBranch b (Branch.initial.atRest .vacant 0 none)

/-- The start-up of the feeds (R135). -/
def startFeeds (s : State) : State :=
  let f := s.params.preferredFeed
  let t := (s.setInlet f .opened).setInlet f.other .closed
  { t with activeFeed := f, startup := some (Timer.start s.params.switchWindow) }

/-- The mark area judged: unreadable, it is reported (R192). -/
def judgeMarks (marksRead : Bool) (s : State) : State :=
  if marksRead then s else report .storeFault .nothing (some 2) s

/-- The Cycle Timer begins its first period and the summary holds no cycle (R82, R83, R103, R104). -/
def restartCycles (s : State) : State :=
  { s with timer := CycleTimer.restarted s.clock, summary := CycleSummary.cleared s.activeFeed }

/-- The load judged and the start sequence made, in the order of R191 and R192. -/
def finishLoad (imageRead marksRead : Bool) (s : State) : State :=
  let t := judgeMarks marksRead (loadStore imageRead s)
  let t := allBranches.foldl (startBranch marksRead) t
  let t := startRound (restartCycles (startFeeds t))
  notifyAll .restarted { t with loading := false }

/-! ## The warm reset -/

/-- The save state and the mark write when a warm reset is taken: the save and the write are abandoned, the queue is kept,
and a pending retry wait ends (R194, R195). -/
def Store.abandon (x : Store) : Store := { save := none, queue := x.queue, write := none, retry := none }

/-- A warm reset is taken (R195). A save it aborts leaves an image whose CRC does not match it (R193). -/
def takeReset (s : State) : State :=
  { s with
    ports := mapTable (fun _ => LinkPort.toIdle) s.ports,
    scanner := { s.scanner with exchange := none },
    store := s.store.abandon,
    saveAborted := s.saveAborted || s.store.save.isSome,
    imageTorn := s.imageTorn || s.store.save.isSome,
    restartDue := false }

/-- The timers of a branch in flight started again (R62, R171). -/
def Branch.restart (p : Params) (e : MapEntry) (x : Branch) : Branch :=
  match x.state with
  | .priming => { x with timer := some (Timer.start p.primeWindow) }
  | .backoff => { x with timer := some (Timer.start (backoffSteps x.attempts)) }
  | .flowing => { x with ttl := e.startTtl }
  | .isolating =>
    { x with subPhase := some .supplyClosing, supply := 0, ret := .opened,
             timer := some (Timer.start p.isolateWindow) }
  | _ => x

/-- The measurement table and the exchange number cleared (R32, R33). -/
def clearMeasurements (s : State) : State :=
  { s with
    measured := Vector.replicate 48 Measurement.cleared,
    segments := Vector.replicate 16 SegmentRecord.cleared,
    head := HeadRecord.cleared,
    scanner := { s.scanner with number := 0 } }

/-- The switch at a warm reset: one in OPENING is cancelled, one in CLOSING_OLD is ended (R136). -/
def dropSwitch (s : State) : State :=
  match s.switch with
  | some w => if w.phase = .opening then cancelSwitch w s else { s with switch := none }
  | none => s

/-- A feed record at a warm reset: the mark clear, the timer stopped, the proof count 0 (R136). -/
def FeedRecord.restart (f : FeedRecord) : FeedRecord := { f with failed := false, lowTimer := none, proof := 0 }

/-- The Feed Controller at a warm reset (R136). -/
def restartFeeds (s : State) : State :=
  let t := dropSwitch s
  { t with
    feeds := mapTable (fun _ => FeedRecord.restart) t.feeds,
    startup := t.startup.map fun _ => Timer.start t.params.switchWindow }

/-- A zone record at a warm reset: a confirm timer starts again, running (R154). -/
def Zone.restart (window : Nat) (z : Zone) : Zone :=
  { z with confirm := z.confirm.map fun _ => { remaining := Timer.start window, running := true } }

/-- A port's flags at a warm reset: cleared, then RESTARTED (R181). -/
def LinkPort.restart (x : LinkPort) : LinkPort := LinkPort.flag .restarted { x with flags := 0 }

/-- SAVE_ABORTED where the reset aborted a save (R195). -/
def reportAbort (s : State) : State :=
  if s.saveAborted then report .saveAborted .nothing none { s with saveAborted := false } else s

/-- The timers and records that restart when a warm reset completes (R62, R83, R104, R136, R154, R171, R181). -/
def restartRecords (s : State) : State :=
  let t := restartFeeds (restartCycles (clearMeasurements s))
  { t with
    branches := mapTable (fun b => Branch.restart t.params (t.entry b)) t.branches,
    freeze := none,
    zones := mapTable (fun _ => Zone.restart t.params.confirmWindow) t.zones,
    park := t.park.map fun _ => { window := Timer.start t.params.parkWindow, confirmed := 0 },
    ports := mapTable (fun _ => LinkPort.restart) t.ports }

/-- A warm reset completes: the records restart, SAVE_ABORTED follows RESTARTED, and the first round starts (R33, R195). -/
def completeReset (s : State) : State := startRound (reportAbort (restartRecords s))

/-! ## The commands -/

/-- RESTART's effect: the answer is sent in full before the reset is taken (R195). -/
def restartRequest : Handler := fun s => (Reply.plain .ok, { s with restartDue := true })

/-- RESTART (R195). -/
def execRestart (p : Port) (body : List Byte) (s : State) : Host.Outcome State Fault Refusal :=
  request p 0x41 [0] [.rm] body restartRequest s

/-- POWER_ON (R191): the EEPROM's bytes and the level of the RESET_N line are what power-on finds. A save that the loss of
power ended before its completion leaves an image whose CRC does not match it (R193). -/
def execPowerOn (s : State) : Host.Outcome State Fault Refusal :=
  .next { State.poweredOn s.eeprom (s.imageTorn || s.store.save.isSome) s.resetLow with pending := s.pending, draws := s.draws }

/-- RESET_N falls: the reset is taken, unless the power-on load still runs (R195). -/
def lowerReset (s : State) : State :=
  if s.resetLow then s
  else
    let t := { s with resetLow := true }
    if s.loading then t else takeReset t

/-- RESET_N rises: the reset that was taken completes (R195). -/
def raiseReset (s : State) : State :=
  if s.resetLow then
    let t := { s with resetLow := false }
    if s.loading then t else completeReset t
  else s

/-- The reset of a RESTART whose answer has been sent: taken, and complete at once (R195). -/
def restartNow (s : State) : State := if s.restartDue then completeReset (takeReset s) else s

/-- The power-on load ends; a RESET_N still low is then taken (R195). -/
def endLoad (imageRead marksRead : Bool) (s : State) : State :=
  if s.loading then
    let t := finishLoad imageRead marksRead s
    if t.resetLow then takeReset t else t
  else s

/-- RESET_N_ASSERT (R195). -/
def execResetNAssert (after : Nat) (s : State) : Host.Outcome State Fault Refusal := .next (lowerReset (s.elapse after))

/-- RESET_N_RELEASE (R195). -/
def execResetNRelease (after : Nat) (s : State) : Host.Outcome State Fault Refusal := .next (raiseReset (s.elapse after))

/-- RESTART_RESET (R195). -/
def execRestartReset (after : Nat) (s : State) : Host.Outcome State Fault Refusal := event after restartNow s

/-- STORE_LOAD_COMPLETE (R191, R192). -/
def execStoreLoadComplete (after : Nat) (imageRead marksRead : Bool) (s : State) : Host.Outcome State Fault Refusal :=
  .next (endLoad imageRead marksRead (s.elapse after))

end Sys2Proof.Machine
end

