-- ==== Sys2Proof/Machine/Dispatch.lean ====
section
/-! DEFINITION. Dispatch: one arm for each command, in the table's order. -/

namespace Sys2Proof.Machine

open Sys2Proof

def exec (i : Instr) (s : State) : Host.Outcome State Fault Refusal :=
  match i with
  | .readStatus p body => Sys2Proof.Machine.execReadStatus p body s
  | .readBranch p body => Sys2Proof.Machine.execReadBranch p body s
  | .readSegment p body => Sys2Proof.Machine.execReadSegment p body s
  | .readFeeds p body => Sys2Proof.Machine.execReadFeeds p body s
  | .readLeases p body => Sys2Proof.Machine.execReadLeases p body s
  | .readPlan p body => Sys2Proof.Machine.execReadPlan p body s
  | .readIncidents p body => Sys2Proof.Machine.execReadIncidents p body s
  | .readNotices p body => Sys2Proof.Machine.execReadNotices p body s
  | .setNoticeMask p body => Sys2Proof.Machine.execSetNoticeMask p body s
  | .mapWrite p body => Sys2Proof.Machine.execMapWrite p body s
  | .mapClear p body => Sys2Proof.Machine.execMapClear p body s
  | .admitBranch p body => Sys2Proof.Machine.execAdmit p body s
  | .release p body => Sys2Proof.Machine.execRelease p body s
  | .pin p body => Sys2Proof.Machine.execPin p body s
  | .unpin p body => Sys2Proof.Machine.execUnpin p body s
  | .setDemand p body => Sys2Proof.Machine.execSetDemand p body s
  | .setLimits p body => Sys2Proof.Machine.execSetLimits p body s
  | .freeze p body => Sys2Proof.Machine.execFreeze p body s
  | .thaw p body => Sys2Proof.Machine.execThaw p body s
  | .setTuning p body => Sys2Proof.Machine.execSetTuning p body s
  | .grantBudget p body => Sys2Proof.Machine.execGrantBudget p body s
  | .withdrawBudget p body => Sys2Proof.Machine.execWithdrawBudget p body s
  | .switchFeed p body => Sys2Proof.Machine.execSwitchFeed p body s
  | .lockFeed p body => Sys2Proof.Machine.execLockFeed p body s
  | .isolateBranch p body => Sys2Proof.Machine.execIsolateBranch p body s
  | .isolateZone p body => Sys2Proof.Machine.execIsolateZone p body s
  | .restoreBranch p body => Sys2Proof.Machine.execRestoreBranch p body s
  | .restoreZone p body => Sys2Proof.Machine.execRestoreZone p body s
  | .clearZone p body => Sys2Proof.Machine.execClearZone p body s
  | .setZonePolicy p body => Sys2Proof.Machine.execSetZonePolicy p body s
  | .hold p body => Sys2Proof.Machine.execHold p body s
  | .releaseHold p body => Sys2Proof.Machine.execReleaseHold p body s
  | .clearFault p body => Sys2Proof.Machine.execClearFault p body s
  | .clearSafe p body => Sys2Proof.Machine.execClearSafe p body s
  | .park p body => Sys2Proof.Machine.execPark p body s
  | .unpark p body => Sys2Proof.Machine.execUnpark p body s
  | .ackIncident p body => Sys2Proof.Machine.execAckIncident p body s
  | .saveConfig p body => Sys2Proof.Machine.execSaveConfig p body s
  | .restart p body => Sys2Proof.Machine.execRestart p body s
  | .unknownRequest p code body => Sys2Proof.Machine.execUnknownRequest p code body s
  | .frameDiscarded after p cause => Sys2Proof.Machine.execFrameDiscarded after p cause s
  | .discardQuiet after p => Sys2Proof.Machine.execDiscardQuiet after p s
  | .answerEnd after p => Sys2Proof.Machine.execAnswerEnd after p s
  | .roundStart after => Sys2Proof.Machine.execRoundStart after s
  | .exchangeStart after => Sys2Proof.Machine.execExchangeStart after s
  | .segmentReport after z r => Sys2Proof.Machine.execSegmentReport after z r s
  | .headReport after r => Sys2Proof.Machine.execHeadReport after r s
  | .exchangeMiss after => Sys2Proof.Machine.execExchangeMiss after s
  | .freeCycleStart after => Sys2Proof.Machine.execFreeCycleStart after s
  | .lockedCycleStart after => Sys2Proof.Machine.execLockedCycleStart after s
  | .mark after input => Sys2Proof.Machine.execMark after input s
  | .lossDeadline after => Sys2Proof.Machine.execLossDeadline after s
  | .primeWindowExpiry after b => Sys2Proof.Machine.execPrimeWindowExpiry after b s
  | .backoffExpiry after b => Sys2Proof.Machine.execBackoffExpiry after b s
  | .ttlExpiry after b => Sys2Proof.Machine.execTtlExpiry after b s
  | .freezeExpiry after => Sys2Proof.Machine.execFreezeExpiry after s
  | .leaseT1Reached after f => Sys2Proof.Machine.execLeaseT1Reached after f s
  | .leaseT2Reached after f => Sys2Proof.Machine.execLeaseT2Reached after f s
  | .leaseLapse after f => Sys2Proof.Machine.execLeaseLapse after f s
  | .switchWindowExpiry after => Sys2Proof.Machine.execSwitchWindowExpiry after s
  | .closingOldExpiry after => Sys2Proof.Machine.execClosingOldExpiry after s
  | .lowPressureExpiry after f => Sys2Proof.Machine.execLowPressureExpiry after f s
  | .startupWindowExpiry after => Sys2Proof.Machine.execStartupWindowExpiry after s
  | .isolateWindowExpiry after b => Sys2Proof.Machine.execIsolateWindowExpiry after b s
  | .confirmExpiry after z => Sys2Proof.Machine.execConfirmExpiry after z s
  | .parkWindowExpiry after => Sys2Proof.Machine.execParkWindowExpiry after s
  | .markWriteStart after => Sys2Proof.Machine.execMarkWriteStart after s
  | .markWriteEnd after ack => Sys2Proof.Machine.execMarkWriteEnd after ack s
  | .markRetryExpiry after => Sys2Proof.Machine.execMarkRetryExpiry after s
  | .savePageWriteEnd after ack => Sys2Proof.Machine.execSavePageWriteEnd after ack s
  | .powerOn => Sys2Proof.Machine.execPowerOn s
  | .resetNAssert after => Sys2Proof.Machine.execResetNAssert after s
  | .resetNRelease after => Sys2Proof.Machine.execResetNRelease after s
  | .restartReset after => Sys2Proof.Machine.execRestartReset after s
  | .storeLoadComplete after imageRead marksRead => Sys2Proof.Machine.execStoreLoadComplete after imageRead marksRead s
  | .firstByteOfFrame after p byte => Sys2Proof.Machine.execFirstByteOfFrame after p byte s

end Sys2Proof.Machine
end

