-- ==== Sys2Proof/Machine/Timers.lean ====
section
/-! DEFINITION. What the part does by itself when no command waits: the events that are due, which one is taken, and the
millisecond that passes when none is (notes/assumptions/6.md). -/

namespace Sys2Proof.Machine

open Sys2Proof

/-- The command `c` where its event is due. -/
def dueIf (due : Bool) (c : Instr) : List Instr := if due then [c] else []

/-- The timers of one branch that have run out (R45, R46, R52, R158). -/
def dueOfBranch (s : State) (b : BranchId) : List Instr :=
  dueIf (timerDue s b .priming) (.primeWindowExpiry 0 b) ++ dueIf (timerDue s b .backoff) (.backoffExpiry 0 b) ++
    dueIf (timerDue s b .isolating) (.isolateWindowExpiry 0 b) ++ dueIf (ttlDue s b) (.ttlExpiry 0 b)

/-- The lease mark that is reached and not taken yet, and the low-pressure timer of one feed that has run out (R109, R110,
R112, R129). The passing of time takes every mark of a lease itself. -/
def dueOfFeed (s : State) (f : Feed) : List Instr :=
  dueIf (leaseDue s f .bound) (.leaseT1Reached 0 f) ++ dueIf (leaseDue s f .renewDue) (.leaseT2Reached 0 f) ++
    dueIf (leaseDue s f .expiring) (.leaseLapse 0 f) ++ dueIf (lowPressureDue s f) (.lowPressureExpiry 0 f)

/-- The freeze age has reached FREEZE_LIMIT (R71). -/
def freezeDue (s : State) : Bool :=
  match s.freeze with
  | some f => decide (s.params.freezeLimit ≤ f.age.steps)
  | none => false

/-- The switch window has run out in a phase (R126, R127). -/
def switchDue (s : State) (phase : SwitchPhase) : Bool :=
  match s.switch with
  | some w => decide (w.phase = phase ∧ w.window.steps = 0)
  | none => false

/-- The park window has run out in PARKING (R169). -/
def parkDue (s : State) : Bool :=
  match s.mode, s.park with
  | .parking, some p => decide (p.window.steps = 0)
  | _, _ => false

/-- The answer window of the exchange in progress has closed (R19). -/
def missDue (s : State) : Bool :=
  match s.scanner.exchange with
  | some e => e.closed s.clock
  | none => false

/-- The round has a next module and no exchange is in progress (R19, R23). -/
def exchangeDue (s : State) : Bool := decide (s.scanner.exchange = none ∧ s.scanner.next < 17)

/-- The head of the mark write queue can be written (R194). -/
def markDue (s : State) : Bool :=
  decide (s.store.save = none ∧ s.store.retry = none ∧ s.store.write = none ∧ s.store.queue ≠ [])

/-- The events that are due in this state. -/
def dueEvents (s : State) : List Instr :=
  allBranches.flatMap (dueOfBranch s) ++ dueOfFeed s .a ++ dueOfFeed s .b ++
    allSegments.flatMap (fun z => dueIf (confirmDue s z) (.confirmExpiry 0 z)) ++
    dueIf (roundDue s) (.roundStart 0) ++ dueIf (exchangeDue s) (.exchangeStart 0) ++
    dueIf (missDue s) (.exchangeMiss 0) ++ dueIf (freeCycleDue s) (.freeCycleStart 0) ++
    dueIf (lockedCycleDue s) (.lockedCycleStart 0) ++ dueIf (deadlineDue s) (.lossDeadline 0) ++
    dueIf (freezeDue s) (.freezeExpiry 0) ++ dueIf (switchDue s .opening) (.switchWindowExpiry 0) ++
    dueIf (switchDue s .closingOld) (.closingOldExpiry 0) ++
    dueIf (isOver s.startup) (.startupWindowExpiry 0) ++ dueIf (parkDue s) (.parkWindowExpiry 0) ++
    dueIf (markDue s) (.markWriteStart 0) ++ dueIf (isOver s.store.retry) (.markRetryExpiry 0)

/-- The event taken of several that are due: which one is a free value (notes/assumptions/6.md). -/
def takenOf (draw : Nat) : List Instr → Option Instr
  | [] => none
  | [c] => some c
  | c :: d :: rest => (c :: d :: rest)[Config.takenFirst draw % (rest.length + 2)]?

/-- The event the part takes now, by itself; none during the load and while RESET_N is held low (R191, R195). -/
def nextEvent (s : State) : Option Instr := if s.running then takenOf s.draws (dueEvents s) else none

/-- What the part does when no command waits: it takes one event that is due, or one millisecond passes. -/
def idle (run : Instr → State → Host.Outcome State Fault Refusal) (s : State) : Host.Outcome State Fault Refusal :=
  match nextEvent s with
  | some c => run c { s with draws := s.draws + 1 }
  | none => .next (s.elapse 1)

end Sys2Proof.Machine
end

