-- ==== Sys2Proof/Safety.lean ====
section
/-! DEFINITION. What a safe run of the MX48 keeps: the invariants the manual states or implies, in the terms the claims
use, and the frames in which the claims say what a command leaves alone. -/

namespace Sys2Proof.Machine

open Sys2Proof

/-! ## Taking a request -/

/-- The port can take a frame that ends now, and the power-on load is complete (R182, R184). -/
def Ready (s : State) (p : Port) : Prop := s.takesFrame p = true ∧ s.loading = false

/-- A request of R185's catalogue as the claims see it: port, code, body lengths allowed, ports allowed, body. -/
structure Catalogued where
  port : Port
  code : Byte
  lengths : List Nat
  ports : List Port
  body : List Byte
  deriving DecidableEq, Repr

/-- R185's catalogue, row by row; `none` for what is not one of its requests. -/
def catalogue : Instr → Option Catalogued
  | .readStatus p body => some ⟨p, 0x01, [0], [.rm, .ua, .ub, .sp], body⟩
  | .readBranch p body => some ⟨p, 0x02, [2], [.rm, .ua, .ub, .sp], body⟩
  | .readSegment p body => some ⟨p, 0x03, [1], [.rm, .ua, .ub, .sp], body⟩
  | .readFeeds p body => some ⟨p, 0x04, [0], [.rm, .ua, .ub, .sp], body⟩
  | .readLeases p body => some ⟨p, 0x05, [0], [.rm, .ua, .ub, .sp], body⟩
  | .readPlan p body => some ⟨p, 0x06, [2], [.rm, .ua, .ub, .sp], body⟩
  | .readIncidents p body => some ⟨p, 0x07, [1], [.rm, .ua, .ub, .sp], body⟩
  | .readNotices p body => some ⟨p, 0x08, [0], [.rm, .ua, .ub, .sp], body⟩
  | .setNoticeMask p body => some ⟨p, 0x09, [2], [.rm, .ua, .ub, .sp], body⟩
  | .mapWrite p body => some ⟨p, 0x10, [10], [.rm], body⟩
  | .mapClear p body => some ⟨p, 0x11, [1], [.rm], body⟩
  | .admitBranch p body => some ⟨p, 0x12, [1], [.rm], body⟩
  | .release p body => some ⟨p, 0x13, [1], [.rm], body⟩
  | .pin p body => some ⟨p, 0x14, [3], [.rm], body⟩
  | .unpin p body => some ⟨p, 0x15, [1], [.rm], body⟩
  | .setDemand p body => some ⟨p, 0x18, [3], [.rm], body⟩
  | .setLimits p body => some ⟨p, 0x19, [6], [.rm], body⟩
  | .freeze p body => some ⟨p, 0x1A, [0], [.rm, .sp], body⟩
  | .thaw p body => some ⟨p, 0x1B, [0], [.rm, .sp], body⟩
  | .setTuning p body => some ⟨p, 0x1C, [5], [.rm, .sp], body⟩
  | .grantBudget p body => some ⟨p, 0x20, [6, 14], [.ua, .ub], body⟩
  | .withdrawBudget p body => some ⟨p, 0x21, [0], [.ua, .ub], body⟩
  | .switchFeed p body => some ⟨p, 0x24, [1], [.rm, .ua, .ub], body⟩
  | .lockFeed p body => some ⟨p, 0x25, [0], [.rm], body⟩
  | .isolateBranch p body => some ⟨p, 0x30, [1], [.sp], body⟩
  | .isolateZone p body => some ⟨p, 0x31, [1], [.sp], body⟩
  | .restoreBranch p body => some ⟨p, 0x32, [1], [.sp, .rm], body⟩
  | .restoreZone p body => some ⟨p, 0x33, [1], [.sp], body⟩
  | .clearZone p body => some ⟨p, 0x34, [1], [.sp], body⟩
  | .setZonePolicy p body => some ⟨p, 0x35, [2], [.sp], body⟩
  | .hold p body => some ⟨p, 0x36, [0], [.sp], body⟩
  | .releaseHold p body => some ⟨p, 0x37, [0], [.sp], body⟩
  | .clearFault p body => some ⟨p, 0x38, [0], [.sp], body⟩
  | .clearSafe p body => some ⟨p, 0x39, [0], [.sp], body⟩
  | .park p body => some ⟨p, 0x3A, [0], [.rm], body⟩
  | .unpark p body => some ⟨p, 0x3B, [0], [.rm], body⟩
  | .ackIncident p body => some ⟨p, 0x3C, [2], [.rm, .sp], body⟩
  | .saveConfig p body => some ⟨p, 0x40, [0], [.rm], body⟩
  | .restart p body => some ⟨p, 0x41, [0], [.rm], body⟩
  | .unknownRequest _ _ _ | .frameDiscarded _ _ _ | .discardQuiet _ _ | .answerEnd _ _ | .roundStart _
  | .exchangeStart _ | .segmentReport _ _ _ | .headReport _ _ | .exchangeMiss _ | .freeCycleStart _
  | .lockedCycleStart _ | .mark _ _ | .lossDeadline _ | .primeWindowExpiry _ _ | .backoffExpiry _ _
  | .ttlExpiry _ _ | .freezeExpiry _ | .leaseT1Reached _ _ | .leaseT2Reached _ _ | .leaseLapse _ _
  | .switchWindowExpiry _ | .closingOldExpiry _ | .lowPressureExpiry _ _ | .startupWindowExpiry _
  | .isolateWindowExpiry _ _ | .confirmExpiry _ _ | .parkWindowExpiry _ | .markWriteStart _ | .markWriteEnd _ _
  | .markRetryExpiry _ | .savePageWriteEnd _ _ | .powerOn | .resetNAssert _ | .resetNRelease _ | .restartReset _
  | .storeLoadComplete _ _ _ | .firstByteOfFrame _ _ _ => none

/-- The slot tag a request of the rack manager names (R6, R14). -/
def tagNamed : Instr → Option Nat
  | .admitBranch _ body | .release _ body | .pin _ body | .unpin _ body | .setDemand _ body | .setLimits _ body
  | .restoreBranch .rm body => some (at1 body 0)
  | .readBranch _ body | .readPlan _ body => if at1 body 0 = 0 then some (at1 body 1) else none
  | _ => none

/-- The branch index a request names (R14). -/
def branchNamed : Instr → Option Nat
  | .mapWrite _ body | .mapClear _ body | .isolateBranch _ body | .restoreBranch .sp body => some (at1 body 0)
  | .readBranch _ body | .readPlan _ body => if at1 body 0 = 1 then some (at1 body 1) else none
  | _ => none

/-- The zone or segment index a request names (R14). -/
def zoneNamed : Instr → Option Nat
  | .readSegment _ body | .isolateZone _ body | .restoreZone _ body | .clearZone _ body | .setZonePolicy _ body =>
    some (at1 body 0)
  | _ => none

/-- The addressing form of a read that carries one (R184). -/
def formNamed : Instr → Option Nat
  | .readBranch _ body | .readPlan _ body => some (at1 body 0)
  | _ => none

/-- The branch `b` carries the tag `tag` (R6). -/
def Carries (s : State) (b : BranchId) (tag : Nat) : Prop := findTag s tag = some b

/-- Both copies of one branch's plan entry written (R57). -/
def State.withPlan (s : State) (b : BranchId) (e : PlanEntry) : State :=
  { s with planPending := put s.planPending b e, planActive := put s.planActive b e }

/-- The entry that MAP_WRITE's values make, brought into range (R9). -/
def writtenEntry (tag : SlotTag) (auto : Bool) (authority : Authority) (gain prime : Nat) (policy : TtlPolicy)
    (time : Nat) : MapEntry :=
  { slotTag := some tag, autoAdmit := auto, authority := authority, gain := max 1 gain,
    primePosition := max 50 (min prime 1000), ttlPolicy := policy, ttlTime := max 50 (min time 36000) }

/-- The body of a MAP_WRITE (R185). -/
def mapWriteBody (b : BranchId) (tag : SlotTag) (auto : Bool) (authority : Authority) (gain prime : Nat)
    (policy : TtlPolicy) (time : Nat) : List Byte :=
  [BitVec.ofNat 8 b.val, BitVec.ofNat 8 tag.val, if auto then 1 else 0,
   match authority with | .safetyOnly => 0 | .safetyOrRack => 1,
   BitVec.ofNat 8 gain, BitVec.ofNat 8 (prime / 256), BitVec.ofNat 8 prime,
   match policy with | .refresh => 0 | .fixed => 1 | .none => 2,
   BitVec.ofNat 8 (time / 256), BitVec.ofNat 8 time]

/-! ## Invariants of the map and of the branches -/

/-- R11: no two valid entries carry the same slot tag. -/
def TagsDistinct (s : State) : Prop :=
  ∀ b c : BranchId, b ≠ c → (s.entry b).slotTag ≠ none → (s.entry b).slotTag ≠ (s.entry c).slotTag

/-- R3: an entry without a tag holds the defaults; every field of an entry lies in its range. -/
def MapEntry.fits (e : MapEntry) : Prop :=
  (e.slotTag = none → e = MapEntry.default) ∧ (1 ≤ e.gain ∧ e.gain ≤ 255) ∧
    (50 ≤ e.primePosition ∧ e.primePosition ≤ 1000) ∧ (50 ≤ e.ttlTime ∧ e.ttlTime ≤ 36000)

/-- R3 for the whole Branch Map. -/
def EntriesFit (s : State) : Prop := ∀ b, (s.entry b).fits

/-- R5: an UNMAPPED branch has an entry that is not valid; a branch in any state but UNMAPPED and the three isolation states
has a valid one. -/
def StatesMatchEntries (s : State) : Prop :=
  ∀ b, ((s.branch b).state = .unmapped → (s.entry b).slotTag = none) ∧
    ((s.branch b).state ≠ .unmapped → (s.branch b).state.isIsolation = false → (s.entry b).slotTag ≠ none)

/-- R36: the fields of a record agree with its state, under the entry of its branch. -/
def Branch.agrees (e : MapEntry) (x : Branch) : Prop :=
  (x.timer.isSome = decide (x.state = .priming ∨ x.state = .backoff ∨ x.state = .isolating)) ∧
  (x.ttl.isSome = decide (x.state = .flowing ∧ e.ttlPolicy ≠ .none)) ∧
  (x.pin.isSome = decide (x.state = .pinned)) ∧
  (x.target.isSome = true → x.state = .flowing ∨ x.state = .setback) ∧
  (x.subPhase.isSome = decide (x.state = .isolating)) ∧
  (x.reason.isSome = x.state.isIsolation) ∧
  (x.state ≠ .priming ∧ x.state ≠ .backoff ∧ x.state ≠ .noflow → x.attempts = 0) ∧
  (x.proof ≤ 3 ∧ (x.state ≠ .priming → x.proof = 0)) ∧
  (x.hot = true → x.state = .flowing ∨ x.state = .setback)

/-- R36 and R37 for the whole Branch Table. -/
def RecordsAgree (s : State) : Prop := ∀ b, (s.branch b).agrees (s.entry b)

/-- R36, R45, R48: the priming attempts of a record lie between 0 and 8, are at least 1 in PRIMING and BACKOFF, and leave
BACKOFF room for one more. -/
def Branch.attemptsFit (x : Branch) : Prop :=
  x.attempts ≤ 8 ∧ (x.state = .priming ∨ x.state = .backoff → 1 ≤ x.attempts) ∧ (x.state = .backoff → x.attempts ≤ 7)

/-- The priming attempts of the whole Branch Table. -/
def AttemptsFit (s : State) : Prop := ∀ b, (s.branch b).attemptsFit

/-- R38's table for one branch: what its state commands its valves to. -/
def Branch.outputsFit (e : MapEntry) (x : Branch) : Prop :=
  match x.state with
  | .unmapped | .vacant | .backoff | .noflow | .isolated | .isolateFault => x.supply = 0 ∧ x.ret = .closed
  | .priming => x.supply = e.primePosition ∧ x.ret = .opened
  | .flowing | .setback => x.supply ≤ 1000 ∧ x.ret = .opened
  | .pinned => x.pin = some x.supply ∧ x.supply ≤ 1000 ∧ x.ret = .opened
  | .isolating =>
    x.supply = 0 ∧ ((x.subPhase = some .supplyClosing ∧ x.ret = .opened) ∨
      (x.subPhase = some .returnClosing ∧ x.ret = .closed))

/-- R38 for the whole Branch Table, with the prime positions in range (R3). -/
def OutputsFit (s : State) : Prop :=
  ∀ b, (s.entry b).primePosition ≤ 1000 ∧ (s.branch b).outputsFit (s.entry b)

/-- R156: a mark is set exactly in the three isolation states. -/
def MarksMatch (s : State) : Prop := ∀ b, (s.branch b).isolationMark = (s.branch b).state.isIsolation

/-! ## Invariants of the plan and of the allotment -/

/-- R63: in each copy of each plan entry the floor is at most the cap. -/
def FloorsBelowCaps (s : State) : Prop :=
  ∀ b, (s.pendingPlan b).floor ≤ (s.pendingPlan b).cap ∧ (s.activePlan b).floor ≤ (s.activePlan b).cap

/-- R63: demand, floor and cap of a plan entry are 0 to 2000 fu, the weight 1 to 15. -/
def PlanEntry.inRange (e : PlanEntry) : Prop :=
  e.demand ≤ 2000 ∧ e.floor ≤ 2000 ∧ e.cap ≤ 2000 ∧ 1 ≤ e.weight ∧ e.weight ≤ 15

/-- R63 for both copies of every plan entry. -/
def PlansInRange (s : State) : Prop := ∀ b, (s.pendingPlan b).inRange ∧ (s.activePlan b).inRange

/-- R94: a target lies between the active floor and the active cap of its branch. -/
def TargetsBounded (s : State) : Prop :=
  ∀ b, (s.branch b).state.isAllotting = true → ∀ t ∈ (s.branch b).target,
    (s.activePlan b).floor ≤ t ∧ t ≤ (s.activePlan b).cap

/-- R57: both plan copies of an UNMAPPED or VACANT branch hold the defaults, and those of every branch during the load. -/
def PlansAtRest (s : State) : Prop :=
  ∀ b, (s.branch b).state = .unmapped ∨ (s.branch b).state = .vacant ∨ s.loading = true →
    s.pendingPlan b = PlanEntry.default ∧ s.activePlan b = PlanEntry.default

/-- R58: after PARK, and in PARKED, no branch is admitted; during the load the mode is RUN (R171). -/
def ParkedAtRest (s : State) : Prop :=
  (s.mode = .parking ∨ s.mode = .parked → ∀ b, (s.branch b).state.isAdmitted = false) ∧
  (s.loading = true → s.mode = .run)

/-! ## Invariants of the measurements -/

/-- R25: every measurement lies in the range of its field. -/
def MeasurementsInRange (s : State) : Prop :=
  (∀ b, (s.measure b).supplyFlow ≤ 3000 ∧ (s.measure b).returnFlow ≤ 3000 ∧
    (∀ t ∈ (s.measure b).temperature, t ≤ 1000) ∧ (s.measure b).supplyFeedback ≤ 1000) ∧
  s.head.pressureA ≤ 1000 ∧ s.head.pressureB ≤ 1000

/-- R28: a link state and its consecutive misses are one of the rows of the table, or ONLINE with none. -/
def linkFits (link : LinkState) (misses : Nat) : Prop :=
  match link with
  | .online => misses = 0
  | .missing => misses ≤ 2
  | .stale => misses = 3

/-- R28 for all 17 modules. -/
def LinksFit (s : State) : Prop :=
  (∀ z, linkFits (s.segment z).link (s.segment z).misses) ∧ linkFits s.head.link s.head.misses

/-! ## Invariants of the leases and the feeds -/

/-- R105: the order of a lease's marks, and its age in the range of its state. -/
def Lease.ordered (l : Lease) : Prop :=
  300 ≤ l.duration ∧ l.duration ≤ 864000 ∧ 0 < l.t1 ∧ l.t1 < l.t2 ∧ l.t2 < l.duration ∧ l.budget ≤ 65535 ∧ l.age.part < 100 ∧
    match l.phase with
    | .bound => l.age.steps < l.t1
    | .renewDue => l.t1 ≤ l.age.steps ∧ l.age.steps < l.t2
    | .expiring => l.t2 ≤ l.age.steps ∧ l.age.steps < l.duration
    | .lapsed => l.age.steps = l.duration

/-- R105 for both leases. -/
def LeasesOrdered (s : State) : Prop := ∀ f, ∀ l ∈ s.lease f, l.ordered

/-- R122: the inlets, the switch, the start-up and both-open agree; the active feed's inlet is commanded OPEN. -/
def InletsAgree (s : State) : Prop :=
  (s.feed s.activeFeed).inlet = .opened ∧
  (∀ w ∈ s.switch, w.phase = .opening →
    w.origin = s.activeFeed ∧ w.target = s.activeFeed.other ∧ (s.feed w.target).inlet = .opened) ∧
  (s.bothOpen = true → (s.feed s.activeFeed.other).inlet = .opened ∧ s.switch = none) ∧
  (s.startup ≠ none → s.switch = none ∧ s.bothOpen = false) ∧
  (s.loading = true → s.switch = none ∧ s.bothOpen = false)

/-- R121, R123: the low-pressure timer of a FAILED feed is stopped, and a proof count is at most 3. -/
def FeedsAgree (s : State) : Prop :=
  ∀ f, ((s.feed f).failed = true → (s.feed f).lowTimer = none) ∧ (s.feed f).proof ≤ 3

/-! ## Invariants of the Drip Monitor -/

/-- R192's table: how the two bytes of a mark entry are read. -/
def markReadsSet (mark complement : Byte) : Prop :=
  ¬ ((mark = 0x00 ∧ complement = 0xFF) ∨ (mark = 0xFF ∧ complement = 0xFF))

/-- R138: every accumulator lies between 0 and four times the DRIP_THRESHOLD in force; before the load is complete it is
0. -/
def DripsBounded (s : State) : Prop :=
  (∀ b, (s.drip b).amount ≤ 4 * s.params.dripThreshold) ∧ (s.loading = true → ∀ b, (s.drip b).amount = 0)

/-- R140: the counts of a zone against its state; a confirm timer is present only while the zone is WET (R146). -/
def Zone.fits (z : Zone) : Prop :=
  (match z.state with
    | .dry => z.rise ≤ 2 ∧ z.dry = 0
    | .damp => z.rise ≤ 2 ∧ z.dry ≤ 19
    | .wet => z.rise = 0 ∧ z.dry ≤ 20) ∧ (z.confirm ≠ none → z.state = .wet)

/-- R140 for the 16 zones. -/
def ZonesFit (s : State) : Prop := ∀ z, (s.zone z).fits

/-! ## Invariants of the modes, the incidents, the parameters and the store -/

/-- R163, R167, R168: SAFE only in fault hold, a fault-hold count of 1 to 255, a park record exactly in PARKING. -/
def ModesAgree (s : State) : Prop :=
  (s.mode = .safe → s.faultHold ≠ none) ∧ (∀ h ∈ s.faultHold, 1 ≤ h.count ∧ h.count ≤ 255) ∧
  (s.park.isSome = decide (s.mode = .parking))

/-- R172, R174: at most 32 records, no two of one kind and subject, no two of one sequence number. -/
def IncidentsFit (s : State) : Prop :=
  s.incidents.records.length ≤ 32 ∧ (s.incidents.records.map fun r => (r.kind, r.subject)).Nodup ∧
    (s.incidents.records.map (·.sequence)).Nodup ∧ s.incidents.overflow ≤ 255 ∧ s.incidents.next < 65536

/-- R24, R48, R71, R80, R101, R134, R151, R170: every numeric parameter lies in its range, FAIL_PRESSURE below
PROOF_PRESSURE, CYCLE_PERIOD a multiple of 10 ms. -/
def Params.inRange (p : Params) : Prop :=
  (50 ≤ p.scanInterval ∧ p.scanInterval ≤ 1000) ∧ (10 ≤ p.proofFlow ∧ p.proofFlow ≤ 500) ∧
  (50 ≤ p.primeWindow ∧ p.primeWindow ≤ 1200) ∧ (1 ≤ p.retryLimit ∧ p.retryLimit ≤ 8) ∧ p.primeReserve ≤ 500 ∧
  (100 ≤ p.cyclePeriod ∧ p.cyclePeriod ≤ 2000 ∧ p.cyclePeriod % 10 = 0) ∧
  (1 ≤ p.markMultiplier ∧ p.markMultiplier ≤ 12) ∧ (10 ≤ p.freezeLimit ∧ p.freezeLimit ≤ 600) ∧
  p.deadband ≤ 100 ∧ (1 ≤ p.stepSlow ∧ p.stepSlow ≤ 100) ∧ (1 ≤ p.stepFast ∧ p.stepFast ≤ 200) ∧
  (50 ≤ p.leapThreshold ∧ p.leapThreshold ≤ 2000) ∧ (1 ≤ p.leapLimit ∧ p.leapLimit ≤ 500) ∧
  (300 ≤ p.hotLimit ∧ p.hotLimit ≤ 900) ∧ (50 ≤ p.proofPressure ∧ p.proofPressure ≤ 600) ∧
  (20 ≤ p.failPressure ∧ p.failPressure ≤ 500 ∧ p.failPressure < p.proofPressure) ∧
  (5 ≤ p.failoverWindow ∧ p.failoverWindow ≤ 100) ∧ (50 ≤ p.switchWindow ∧ p.switchWindow ≤ 600) ∧
  p.imbalanceTol ≤ 200 ∧ (100 ≤ p.dripThreshold ∧ p.dripThreshold ≤ 10000) ∧
  (1 ≤ p.dripDecay ∧ p.dripDecay ≤ 100) ∧ (50 ≤ p.confirmWindow ∧ p.confirmWindow ≤ 3000) ∧
  (100 ≤ p.isolateWindow ∧ p.isolateWindow ≤ 1200) ∧ p.residualFlow ≤ 100 ∧
  (100 ≤ p.parkWindow ∧ p.parkWindow ≤ 3000)

/-- The parameters of the state in their ranges. -/
def ParamsInRange (s : State) : Prop := s.params.inRange

/-- R193, R194: a running save's page and image; at most one queue entry for each branch; the entry being written is the one
at the head, with the value being written unless it has been replaced. -/
def StoreFits (s : State) : Prop :=
  (∀ v ∈ s.store.save, v.page < Config.savePages ∧ v.image.length = Config.imageBytes) ∧
    (s.store.queue.map (·.branch)).Nodup ∧
    ∀ w ∈ s.store.write, ∃ e, s.store.queue.head? = some e ∧ e.branch = w.branch ∧
      (w.replaced = false → e.value = w.value)

/-- An address of one of the two areas of the EEPROM (R190). -/
def inAreas (a : Nat) : Prop := a < 622 ∨ (0x1000 ≤ a ∧ a < 0x1060)

/-! ## Frames -/

/-- A port after a command that neither took a frame on it nor reset it: only flags may have been added (R177, R182). -/
def LinkPort.onlyFlagged (x y : LinkPort) : Prop :=
  y.rx = x.rx ∧ y.answer = x.answer ∧ y.mask = x.mask ∧ x.flags &&& y.flags = x.flags

end Sys2Proof.Machine
end

