-- ==== Sys2Proof/Certificates/Slice0/Obligations.lean ====
section
/-! DEFINITION. The statements about the MX48, chapter by chapter of the manual. -/

open Sys2Proof Sys2Proof.Machine

/-! ## The step -/

/-- A step with commands waiting runs the one at the front on the state with the queue's rest. -/
def Obligations.StepTakesTheFront : Prop :=
  ∀ (c : Instr) (rest : List Instr) (s : State), s.pending = c :: rest → step s = exec c { s with pending := rest }

/-- The model's choice (notes/assumptions/6.md): with no command waiting, a running part takes one of the events that are
due, and where none is due, or the part does not run, a millisecond passes. -/
def Obligations.AnIdleStepTakesADueEvent : Prop :=
  ∀ s : State, s.pending = [] →
    (s.running = false → step s = .next (s.elapse 1)) ∧
    (s.running = true → dueEvents s = [] → step s = .next (s.elapse 1)) ∧
    (s.running = true → dueEvents s ≠ [] → ∃ c ∈ dueEvents s, step s = exec c { s with draws := s.draws + 1 })

/-- Every command answers a next state, and none touches the queue. -/
def Obligations.EveryCommandAnswersANextState : Prop :=
  ∀ (c : Instr) (s : State), ∃ t, exec c s = .next t ∧ t.pending = s.pending

/-! ## Link ports and requests -/

/-- R182, R184, R185: for every request of the catalogue, a port that cannot take a frame loses it without a trace; during
the load it is answered BUSY; then the body length and the port are checked, in that order, and a refusal changes
nothing but the port that answers. Which ports can take a frame is the model's choice (notes/assumptions/4.md). -/
def Obligations.RequestsPassTheirChecksInOrder : Prop :=
  ∀ (c : Instr) (q : Catalogued) (s : State), catalogue c = some q →
    (s.takesFrame q.port = false → exec c s = .next s) ∧
    (s.takesFrame q.port = true → s.loading = true →
      exec c s = .next (s.answering q.port q.code { status := .busy, body := [] })) ∧
    (Ready s q.port → q.body.length ∉ q.lengths →
      exec c s = .next (s.answering q.port q.code { status := .badLength, body := [] })) ∧
    (Ready s q.port → q.body.length ∈ q.lengths → q.port ∉ q.ports →
      exec c s = .next (s.answering q.port q.code { status := .notPermitted, body := [] }))

/-- R6, R14, R184: for every request, a tag that no valid entry carries gives UNKNOWN_SLOT, a branch index above 47 or a
zone index above 15 gives BAD_INDEX, an addressing form other than 0 and 1 gives BAD_VALUE, before the owning rule. The
lookup finds only a branch whose valid entry carries the tag, and none where none does; with distinct tags (R11) it finds
the one that does. -/
def Obligations.AddressesAreCheckedBeforeTheOwningRule : Prop :=
  (∀ (c : Instr) (q : Catalogued) (s : State), catalogue c = some q → Ready s q.port → q.body.length ∈ q.lengths →
      q.port ∈ q.ports →
      (∀ n ∈ tagNamed c, findTag s n = none →
        exec c s = .next (s.answering q.port q.code { status := .unknownSlot, body := [] })) ∧
      (∀ n ∈ branchNamed c, 48 ≤ n →
        exec c s = .next (s.answering q.port q.code { status := .badIndex, body := [] })) ∧
      (∀ n ∈ zoneNamed c, 16 ≤ n →
        exec c s = .next (s.answering q.port q.code { status := .badIndex, body := [] })) ∧
      (∀ n ∈ formNamed c, 2 ≤ n →
        exec c s = .next (s.answering q.port q.code { status := .badValue, body := [] }))) ∧
  (∀ (s : State) (n : Nat),
      (∀ b, findTag s n = some b → ∃ t : SlotTag, (s.entry b).slotTag = some t ∧ t.val = n) ∧
      (findTag s n = none ↔ ∀ (b : BranchId) (t : SlotTag), (s.entry b).slotTag = some t → t.val ≠ n) ∧
      (TagsDistinct s → ∀ (b : BranchId) (t : SlotTag), (s.entry b).slotTag = some t → t.val = n → findTag s n = some b))

/-- R178, R179, R182: a request leaves every other port's receive state, answer and mask alone and clears none of its
flags. -/
def Obligations.ARequestTouchesOnlyItsOwnPort : Prop :=
  ∀ (c : Instr) (q : Catalogued) (s t : State) (p : Port), catalogue c = some q → exec c s = .next t → p ≠ q.port →
    (s.port p).onlyFlagged (t.port p)

/-- R182 to R184: a good frame whose code is outside the catalogue is answered UNKNOWN_REQUEST, and BUSY during the load;
the first byte of a frame, the end of a discarded frame, the quiet line in DISCARDING and the end of an answer move the
port's receive state and nothing else; the frame of a code and a body of up to 254 bytes, with its CRC, is read as their
request. An answering port sends the frame of its answer: sync 0x5A, the length, the code echo, the status by its code 0
to 17, the body, and the CRC over all but the sync. That an answer is held in its port until it ends is the model's choice
(notes/assumptions/4.md). -/
def Obligations.FramesMoveTheReceiveStates : Prop :=
  (∀ (p : Port) (code : Byte) (body : List Byte) (s : State),
      (s.takesFrame p = false → exec (.unknownRequest p code body) s = .next s) ∧
      (s.takesFrame p = true → s.loading = true →
        exec (.unknownRequest p code body) s = .next (s.answering p code { status := .busy, body := [] })) ∧
      (Ready s p →
        exec (.unknownRequest p code body) s = .next (s.answering p code { status := .unknownRequest, body := [] }))) ∧
  (∀ (s : State) (after : Nat) (p : Port), s.held = false →
      (∀ b : Byte, (s.port p).rx = .idle →
        exec (.firstByteOfFrame after p b) s =
          .next ((s.elapse after).setPort p
            { (s.elapse after).port p with rx := if b = 0xA5 then .receiving else .discarding })) ∧
      (∀ cause : DiscardCause, (s.port p).rx ≠ .answering →
        exec (.frameDiscarded after p cause) s =
          .next ((s.elapse after).setPort p { (s.elapse after).port p with rx := .idle, answer := none })) ∧
      (∀ cause : DiscardCause, (s.port p).rx = .answering →
        exec (.frameDiscarded after p cause) s = .next (s.elapse after)) ∧
      ((s.port p).rx = .discarding →
        exec (.discardQuiet after p) s =
          .next ((s.elapse after).setPort p { (s.elapse after).port p with rx := .idle, answer := none })) ∧
      ((s.port p).rx = .answering →
        exec (.answerEnd after p) s =
          .next ((s.elapse after).setPort p { (s.elapse after).port p with rx := .idle, answer := none }))) ∧
  (∀ (after : Nat) (p : Port) (code : Byte) (body : List Byte), body.length ≤ 254 →
    Decode.frame after p (Decode.frameBytes code body) = some (Decode.request p code body)) ∧
  (∀ (s : State) (p : Port) (code : Byte) (status : Status) (body : List Byte), body.length ≤ 253 →
    ∃ w : List Byte, (s.answering p code { status := status, body := body }).sending p = some w ∧
      w.length = body.length + 6 ∧ at1 w 0 = 0x5A ∧ at1 w 1 = body.length + 2 ∧ at1 w 2 = code.toNat ∧
      at1 w 3 = status.code ∧ (w.drop 4).take body.length = body ∧
      at2 w (body.length + 4) = (crc16 ((w.drop 1).take (body.length + 3))).toNat) ∧
  ([Status.ok, .clamped, .unknownRequest, .badLength, .notPermitted, .unknownSlot, .badIndex, .duplicateTag, .badValue,
    .wrongState, .mode, .zoneWet, .heldByOther, .tooLate, .locked, .feedFailed, .busy, .notFound].map Status.code =
    List.range 18)

/-- R187 to R189: each read is answered OK with its record, and nothing but the answering port changes. -/
def Obligations.ReadsAnswerTheirRecord : Prop :=
  ∀ (s : State) (p : Port), Ready s p →
    exec (.readStatus p []) s = .next (s.answering p 0x01 { status := .ok, body := statusAnswer s }) ∧
    exec (.readFeeds p []) s = .next (s.answering p 0x04 { status := .ok, body := feedsAnswer s }) ∧
    exec (.readLeases p []) s = .next (s.answering p 0x05 { status := .ok, body := leasesAnswer s }) ∧
    (∀ start : Byte, exec (.readIncidents p [start]) s =
      .next (s.answering p 0x07 { status := .ok, body := incidentsAnswer s start.toNat })) ∧
    (∀ z : SegId, exec (.readSegment p [BitVec.ofNat 8 z.val]) s =
      .next (s.answering p 0x03 { status := .ok, body := segmentAnswer s z })) ∧
    (∀ b : BranchId,
      exec (.readBranch p [1, BitVec.ofNat 8 b.val]) s =
        .next (s.answering p 0x02 { status := .ok, body := branchRecord s b }) ∧
      exec (.readPlan p [1, BitVec.ofNat 8 b.val]) s =
        .next (s.answering p 0x06 { status := .ok, body := planRecord s b })) ∧
    (∀ (tag : Byte) (b : BranchId), Carries s b tag.toNat →
      exec (.readBranch p [0, tag]) s = .next (s.answering p 0x02 { status := .ok, body := branchRecord s b }) ∧
      exec (.readPlan p [0, tag]) s = .next (s.answering p 0x06 { status := .ok, body := planRecord s b }))

/-- R187 to R189: the length of every answer body, and every field of the branch read record, of the plan, segment, feeds,
leases and incident records and of the status summary, byte by byte; and the code of every state, command, feedback, level,
mode, reason, kind and the like in its table. That the one bit for the isolation fields follows the
reason is the model's choice (notes/assumptions/23.md). -/
def Obligations.AnswersAreLaidOut : Prop :=
  let bit (x : Bool) : Nat := if x then 1 else 0
  let steps (x : Option Timer) : Nat := (x.map (·.steps)).getD 0 % 65536
  (∀ s : State,
      (statusAnswer s).length = 63 ∧ (∀ b, (branchRecord s b).length = 40) ∧ (∀ b, (planRecord s b).length = 16) ∧
      (∀ z, (segmentAnswer s z).length = 38) ∧ (feedsAnswer s).length = 38 ∧ (leasesAnswer s).length = 58 ∧
      (∀ start, (incidentsAnswer s start).length = 4 + 17 * min 4 (s.incidents.records.length - start))) ∧
  (∀ (s : State) (b : BranchId),
      let r := branchRecord s b
      let x := s.branch b
      let e := s.entry b
      at1 r 0 = b.val ∧
      at1 r 1 = bit e.slotTag.isSome + 2 * bit e.autoAdmit + 4 * bit (decide (e.authority = .safetyOrRack)) +
        8 * e.ttlPolicy.code ∧
      at1 r 2 = (e.slotTag.map (·.val)).getD 0 ∧ at1 r 3 = e.gain % 256 ∧ at2 r 4 = e.primePosition % 65536 ∧
      at2 r 6 = e.ttlTime % 65536 ∧ at1 r 8 = x.state.code ∧ at1 r 9 = x.attempts % 256 ∧ at1 r 10 = x.proof % 256 ∧
      at1 r 11 = bit x.timer.isSome + 2 * bit x.ttl.isSome + 4 * bit x.pin.isSome + 8 * bit x.target.isSome +
        16 * bit x.reason.isSome + 32 * bit x.isolationMark + 64 * bit x.hot ∧
      at2 r 12 = steps x.timer ∧ at2 r 14 = steps x.ttl ∧ at2 r 16 = x.pin.getD 0 % 65536 ∧
      at2 r 18 = x.target.getD 0 % 65536 ∧ at2 r 20 = x.supply % 65536 ∧ at1 r 22 = x.ret.code ∧
      at1 r 23 = (x.subPhase.map SubPhase.code).getD 0 ∧ at1 r 24 = (x.reason.map IsolationReason.code).getD 0 ∧
      at2 r 25 = (s.measure b).supplyFlow % 65536 ∧ at2 r 27 = (s.measure b).returnFlow % 65536 ∧
      at2 r 29 = (s.measure b).temperature.getD 65535 % 65536 ∧ at2 r 31 = (s.measure b).supplyFeedback % 65536 ∧
      at1 r 33 = Feedback.code (s.measure b).returnFeedback ∧ at1 r 34 = (s.segment (zoneOf b)).link.code ∧
      at2 r 35 = (s.drip b).amount % 65536 ∧ at1 r 37 = (s.drip b).level.rank ∧
      (at2 r 38 : Int) = (s.drip b).lastImbalance % 65536) ∧
  (∀ (s : State) (b : BranchId),
      let r := planRecord s b
      let p := s.pendingPlan b
      let a := s.activePlan b
      at1 r 0 = b.val ∧ at1 r 1 = (s.branch b).state.code ∧ at2 r 2 = p.demand % 65536 ∧ at2 r 4 = p.floor % 65536 ∧
      at2 r 6 = p.cap % 65536 ∧ at1 r 8 = p.weight % 256 ∧ at2 r 9 = a.demand % 65536 ∧ at2 r 11 = a.floor % 65536 ∧
      at2 r 13 = a.cap % 65536 ∧ at1 r 15 = a.weight % 256) ∧
  (∀ (s : State) (z : SegId),
      let r := segmentAnswer s z
      let x := s.zone z
      at1 r 0 = z.val ∧ at1 r 1 = (s.segment z).link.code ∧ at1 r 2 = (s.segment z).misses % 256 ∧
      at1 r 3 = ZoneLevel.code (s.segment z).lastLevel ∧
      (∀ i : Fin 3,
        let m := s.measure (branchAt z i)
        let o := 4 + 9 * i.val
        at2 r o = m.supplyFlow % 65536 ∧ at2 r (o + 2) = m.returnFlow % 65536 ∧
        at2 r (o + 4) = m.temperature.getD 65535 % 65536 ∧ at2 r (o + 6) = m.supplyFeedback % 65536 ∧
        at1 r (o + 8) = Feedback.code m.returnFeedback) ∧
      at1 r 31 = ZoneLevel.code x.state ∧ at1 r 32 = x.rise % 256 ∧ at1 r 33 = x.dry % 256 ∧
      (x.confirm = none → at1 r 34 = 0 ∧ at2 r 35 = 0) ∧
      (∀ c ∈ x.confirm, at1 r 34 = (if c.running then 1 else 2) ∧ at2 r 35 = c.remaining.steps % 65536) ∧
      at1 r 37 = x.policy.code) ∧
  (∀ s : State,
      let r := feedsAnswer s
      (∀ f : Feed,
        let o := 6 * f.idx.val
        at1 r o = (s.feed f).inlet.code ∧ at1 r (o + 1) = bit (s.feed f).failed ∧
        at1 r (o + 2) = bit (s.feed f).lowTimer.isSome ∧ at2 r (o + 3) = steps (s.feed f).lowTimer ∧
        at1 r (o + 5) = (s.feed f).proof % 256) ∧
      at1 r 12 = s.activeFeed.idx.val ∧ (s.switch = none → (r.drop 13).take 7 = List.replicate 7 0) ∧
      (∀ w ∈ s.switch, at1 r 13 = 1 ∧ at1 r 14 = w.target.idx.val ∧ at1 r 15 = w.origin.idx.val ∧
        at1 r 16 = w.phase.code ∧ at2 r 17 = w.window.steps % 65536 ∧ at1 r 19 = w.requester.code) ∧
      at1 r 20 = bit s.startup.isSome ∧ at2 r 21 = steps s.startup ∧ at1 r 23 = bit s.bothOpen ∧
      at1 r 24 = bit s.feedLock ∧ at1 r 25 = bit s.params.failoverEnable ∧ at2 r 26 = s.params.proofPressure % 65536 ∧
      at2 r 28 = s.params.failPressure % 65536 ∧ at2 r 30 = s.head.pressureA % 65536 ∧
      at2 r 32 = s.head.pressureB % 65536 ∧ at1 r 34 = Feedback.code s.head.inletA ∧ at1 r 35 = Feedback.code s.head.inletB ∧
      at1 r 36 = s.head.link.code ∧ at1 r 37 = s.head.misses % 256) ∧
  (∀ s : State,
      let r := leasesAnswer s
      (∀ f : Feed,
        let o := 23 * f.idx.val
        (s.lease f = none → (r.drop o).take 23 = List.replicate 23 0) ∧
        (∀ l ∈ s.lease f, at1 r o = l.phase.code ∧ at2 r (o + 1) = l.budget % 65536 ∧
          at4 r (o + 3) = l.duration % 4294967296 ∧ at4 r (o + 7) = l.t1 % 4294967296 ∧
          at4 r (o + 11) = l.t2 % 4294967296 ∧ at4 r (o + 15) = l.age.steps % 4294967296 ∧
          at4 r (o + 19) = (match l.phase with
            | .bound => l.t1 - l.age.steps
            | .renewDue => l.t2 - l.age.steps
            | .expiring => l.duration - l.age.steps
            | .lapsed => 0) % 4294967296)) ∧
      at1 r 46 = s.activeFeed.idx.val ∧ at1 r 47 = bit (budgetInForce s).isSome ∧
      at2 r 48 = (budgetInForce s).getD 0 % 65536 ∧ at1 r 50 = bit s.params.autoHandover ∧
      (s.handover = none → (r.drop 51).take 7 = List.replicate 7 0) ∧
      (∀ h ∈ s.handover, at1 r 51 = 1 ∧ at1 r 52 = h.feed.idx.val ∧ at4 r 53 = h.uptime % 4294967296 ∧
        at1 r 57 = h.result.code)) ∧
  (∀ (s : State) (start : Nat),
      let r := incidentsAnswer s start
      at1 r 0 = s.incidents.records.length % 256 ∧ at1 r 1 = s.incidents.overflow % 256 ∧
      at2 r 2 = s.incidents.next % 65536 ∧
      (∀ (k : Fin 4) (i : Incident), s.incidents.records[start + k.val]? = some i →
        let o := 4 + 17 * k.val
        at2 r o = i.sequence % 65536 ∧ at1 r (o + 2) = i.kind.code ∧
        at1 r (o + 3) = (match i.subject with
          | .nothing => 0
          | .branch _ => 1
          | .zone _ => 2
          | .feed _ => 4) + 8 * bit i.detail.isSome ∧
        at1 r (o + 4) = (match i.subject with
          | .nothing => 0
          | .branch b => b.val
          | .zone z => z.val
          | .feed f => f.idx.val) ∧
        at4 r (o + 5) = i.firstTime % 4294967296 ∧ at4 r (o + 9) = i.lastTime % 4294967296 ∧
        at2 r (o + 13) = i.count % 65536 ∧ (at2 r (o + 15) : Int) = i.detail.getD 0 % 65536)) ∧
  (∀ s : State,
      let r := statusAnswer s
      let c := s.summary
      at4 r 0 = s.uptime % 4294967296 ∧ at1 r 4 = s.mode.code ∧
      (s.faultHold = none → (r.drop 5).take 7 = List.replicate 7 0) ∧
      (∀ h ∈ s.faultHold,
        at1 r 5 = (match h.first with
          | .isolateFault _ => 1
          | .bothFeedsFailed => 2) ∧
        at1 r 6 = (match h.first with
          | .isolateFault b => b.val
          | .bothFeedsFailed => 0) ∧
        at1 r 7 = h.count % 256 ∧ at4 r 8 = h.began % 4294967296) ∧
      (s.freeze = none → (r.drop 12).take 3 = List.replicate 3 0) ∧
      (∀ f ∈ s.freeze, at1 r 12 = (match f.holder with
          | .rm => 1
          | .sp => 2) ∧
        at2 r 13 = (s.params.freezeLimit - f.age.steps) % 65536) ∧
      (s.park = none → (r.drop 15).take 5 = List.replicate 5 0) ∧
      (∀ k ∈ s.park, at1 r 15 = 1 ∧ at2 r 16 = k.window.steps % 65536 ∧ at2 r 18 = k.confirmed.toNat) ∧
      at1 r 20 = s.params.cycleMode.code ∧ at1 r 21 = s.timer.timing.code ∧ at1 r 22 = s.timer.lockIn % 256 ∧
      at2 r 23 = s.timer.interval.getD 0 % 65536 ∧ at1 r 25 = s.activeFeed.idx.val ∧
      at1 r 26 = bit c.cycleTime.isSome + 2 * bit c.budget.isSome ∧ at4 r 27 = c.cycleTime.getD 0 % 4294967296 ∧
      at1 r 31 = c.mode.code ∧ at1 r 32 = c.feed.idx.val ∧ at1 r 33 = c.fit.code ∧
      (c.budget = none → (r.drop 34).take 10 = List.replicate 10 0) ∧
      (∀ g ∈ c.budget, at2 r 34 = g.inForce % 65536 ∧ at2 r 36 = g.primingReserve % 65536 ∧
        at4 r 38 = g.pinnedConsumption % 4294967296 ∧ at2 r 42 = g.available % 65536) ∧
      at1 r 44 = c.allotting % 256 ∧ at1 r 45 = c.priming % 256 ∧ at1 r 46 = c.pinned % 256 ∧
      at4 r 47 = c.demand % 4294967296 ∧ at4 r 51 = c.floors % 4294967296 ∧ at4 r 55 = c.targets % 4294967296 ∧
      at1 r 59 = c.passes % 256 ∧ at1 r 60 = c.hotBranches % 256 ∧
      at1 r 61 = bit s.store.save.isSome ∧ at1 r 62 = s.store.queue.length % 256) ∧
  ([BranchState.unmapped, .vacant, .priming, .backoff, .noflow, .flowing, .setback, .pinned, .isolating, .isolated,
      .isolateFault].map BranchState.code = List.range 11 ∧
    [Feedback.opened, .closed, .moving].map Feedback.code = List.range 3 ∧
    [Valve.opened, .closed].map Valve.code = List.range 2 ∧
    [LinkState.online, .missing, .stale].map LinkState.code = List.range 3 ∧
    [ZoneLevel.dry, .damp, .wet].map ZoneLevel.code = List.range 3 ∧
    [SuspectLevel.none, .suspect, .hard].map SuspectLevel.rank = List.range 3 ∧
    [SubPhase.supplyClosing, .returnClosing].map SubPhase.code = List.range 2 ∧
    [IsolationReason.hardImbalance, .confirmedImbalance, .zoneWet, .escalation, .panel, .stored].map
      IsolationReason.code = List.range' 1 6 ∧
    [TtlPolicy.refresh, .fixed, .none].map TtlPolicy.code = List.range 3 ∧
    [ZonePolicy.auto, .report].map ZonePolicy.code = List.range 2 ∧
    [SwitchPhase.opening, .closingOld].map SwitchPhase.code = List.range 2 ∧
    [Requester.rm, .ua, .ub, .handover].map Requester.code = List.range 4 ∧
    [LeasePhase.bound, .renewDue, .expiring, .lapsed].map LeasePhase.code = List.range' 1 4 ∧
    [HandoverResult.started, .notActive, .disabled, .locked, .switchInFlight, .mode, .standbyFailed, .standbyLease].map
      HandoverResult.code = List.range 8 ∧
    [Mode.run, .hold, .safe, .parking, .parked].map Mode.code = List.range 5 ∧
    [Timing.free, .locked].map Timing.code = List.range 2 ∧
    [Fit.floorMode, .unsqueezed, .waterFill, .breach].map Fit.code = List.range 4 ∧
    [Feed.a, .b].map (fun f => f.idx.val) = List.range 2 ∧
    [Kind.branchSuspect, .branchIsolated, .isolateFault, .branchHot, .primeExhausted, .mapDuplicate, .zoneDamp, .zoneWet,
      .zoneIsolated, .segmentLost, .feedFailover, .switchFailed, .inletStuck, .leaseLapsed, .headLost, .bothFeedsFailed,
      .budgetBreach, .safeEntered, .parkIncomplete, .storeInvalid, .storeFault, .saveAborted].map Kind.code =
      List.range' 1 22)

/-- R178, R179, R181: READ_NOTICES answers its port's flags and mask and clears the flags; SET_NOTICE_MASK replaces its
port's mask, or refuses an enable outside the ten categories; the attention line is asserted exactly while a category is
both set and enabled, once the load is complete. -/
def Obligations.NoticesAreReadAndMasked : Prop :=
  (∀ (s : State) (p : Port), Ready s p →
      exec (.readNotices p []) s =
        .next ((s.setPort p { s.port p with flags := 0 }).answering p 0x08
          { status := .ok, body := byte2 (s.port p).flags.toNat ++ byte2 (s.port p).mask.toNat }) ∧
      (∀ n < 1024, exec (.setNoticeMask p (byte2 n)) s =
        .next ((s.setPort p { s.port p with mask := BitVec.ofNat 10 n }).answering p 0x09 { status := .ok, body := [] })) ∧
      (∀ n < 65536, 1024 ≤ n → exec (.setNoticeMask p (byte2 n)) s =
        .next (s.answering p 0x09 { status := .badValue, body := [] }))) ∧
  (∀ (s : State) (p : Port),
      attention s p = true ↔
        s.loading = false ∧ ∃ n : Fin 10, (s.port p).flags[n.val] = true ∧ (s.port p).mask[n.val] = true)

/-! ## The Branch Map -/

/-- R8 to R11: the refusals of MAP_WRITE in their order: a save BUSY, a state WRONG_STATE, an unknown choice code or a tag
above 127 BAD_VALUE, another branch's tag DUPLICATE_TAG; each changes nothing. An accepted one writes the whole entry with
its values brought into range, takes an UNMAPPED branch to VACANT with BRANCH_CHANGED, leaves a VACANT one VACANT without
a notice, and is answered CLAMPED where a value was saturated. -/
def Obligations.MapWriteIsCheckedThenWritten : Prop :=
  (∀ (s : State) (b : BranchId) (body : List Byte),
      Ready s .rm → body.length = 10 → at1 body 0 = b.val →
      (s.store.save ≠ none →
        exec (.mapWrite .rm body) s = .next (s.answering .rm 0x10 { status := .busy, body := [] })) ∧
      (s.store.save = none → (s.branch b).state ≠ .unmapped → (s.branch b).state ≠ .vacant →
        exec (.mapWrite .rm body) s = .next (s.answering .rm 0x10 { status := .wrongState, body := [] })) ∧
      (s.store.save = none → ((s.branch b).state = .unmapped ∨ (s.branch b).state = .vacant) →
        (128 ≤ at1 body 1 ∨ 2 ≤ at1 body 2 ∨ 2 ≤ at1 body 3 ∨ 3 ≤ at1 body 7) →
        exec (.mapWrite .rm body) s = .next (s.answering .rm 0x10 { status := .badValue, body := [] })) ∧
      (s.store.save = none → ((s.branch b).state = .unmapped ∨ (s.branch b).state = .vacant) →
        at1 body 2 < 2 → at1 body 3 < 2 → at1 body 7 < 3 →
        (∃ (c : BranchId) (tag : SlotTag), c ≠ b ∧ (s.entry c).slotTag = some tag ∧ tag.val = at1 body 1) →
        exec (.mapWrite .rm body) s = .next (s.answering .rm 0x10 { status := .duplicateTag, body := [] }))) ∧
  (∀ (s : State) (b : BranchId) (tag : SlotTag) (auto : Bool) (authority : Authority) (gain prime time : Nat)
      (policy : TtlPolicy),
      Ready s .rm → gain < 256 → prime < 65536 → time < 65536 → s.store.save = none →
      ((s.branch b).state = .unmapped ∨ (s.branch b).state = .vacant) →
      (∀ c, c ≠ b → (s.entry c).slotTag ≠ some tag) →
      exec (.mapWrite .rm (mapWriteBody b tag auto authority gain prime policy time)) s =
        .next (State.answering
          (if (s.branch b).state = .unmapped then
            notifyAll .branchChanged
              ((s.setEntry b (writtenEntry tag auto authority gain prime policy time)).setBranch b
                { state := .vacant, attempts := 0, timer := none, proof := 0, ttl := none, pin := none, target := none,
                  supply := 0, ret := .closed, subPhase := none, reason := none,
                  isolationMark := (s.branch b).isolationMark, hot := false })
           else s.setEntry b (writtenEntry tag auto authority gain prime policy time))
          .rm 0x10
          { status := if gain = 0 ∨ prime < 50 ∨ 1000 < prime ∨ time < 50 ∨ 36000 < time then .clamped else .ok,
            body := [] }))

/-- R12: MAP_CLEAR of a VACANT branch outside a save clears the entry to its defaults and takes the branch to UNMAPPED;
during a save it is answered BUSY, in any other state WRONG_STATE; an index above 47 is refused with BAD_INDEX, and every
port but RM with NOT_PERMITTED. -/
def Obligations.MapClearClearsTheEntry : Prop :=
  ∀ (s : State) (b : BranchId), Ready s .rm →
    (s.store.save = none → (s.branch b).state = .vacant →
      exec (.mapClear .rm [BitVec.ofNat 8 b.val]) s =
        .next ((notifyAll .branchChanged
          ((s.setEntry b
            { slotTag := none, autoAdmit := false, authority := .safetyOnly, gain := 64, primePosition := 300,
              ttlPolicy := .refresh, ttlTime := 1200 }).setBranch b
            { state := .unmapped, attempts := 0, timer := none, proof := 0, ttl := none, pin := none, target := none,
              supply := 0, ret := .closed, subPhase := none, reason := none,
              isolationMark := (s.branch b).isolationMark, hot := false })).answering .rm 0x11
          { status := .ok, body := [] })) ∧
    (s.store.save ≠ none →
      exec (.mapClear .rm [BitVec.ofNat 8 b.val]) s = .next (s.answering .rm 0x11 { status := .busy, body := [] })) ∧
    (s.store.save = none → (s.branch b).state ≠ .vacant →
      exec (.mapClear .rm [BitVec.ofNat 8 b.val]) s =
        .next (s.answering .rm 0x11 { status := .wrongState, body := [] })) ∧
    (∀ n : Byte, 48 ≤ n.toNat →
      exec (.mapClear .rm [n]) s = .next (s.answering .rm 0x11 { status := .badIndex, body := [] })) ∧
    (∀ (p : Port) (n : Byte), p ≠ .rm → Ready s p →
      exec (.mapClear p [n]) s = .next (s.answering p 0x11 { status := .notPermitted, body := [] }))

/-! ## Branch lifecycle -/

/-- R40, R42: the refusals of ADMIT in their order: MODE, ZONE_WET, WRONG_STATE. An accepted one takes the branch to
PRIMING at attempt 1, with the prime position commanded, the return OPEN, proof count 0 and the window at PRIME_WINDOW;
nothing else of the part changes but the notices and the answer. -/
def Obligations.AdmitIsCheckedThenPrimes : Prop :=
  (∀ (s : State) (b : BranchId) (tag : Byte), Ready s .rm → Carries s b tag.toNat →
      ((s.mode ≠ .run ∨ s.faultHold ≠ none) →
        exec (.admitBranch .rm [tag]) s = .next (s.answering .rm 0x12 { status := .mode, body := [] })) ∧
      (s.mode = .run → s.faultHold = none → (s.zone (zoneOf b)).state = .wet →
        exec (.admitBranch .rm [tag]) s = .next (s.answering .rm 0x12 { status := .zoneWet, body := [] })) ∧
      (s.mode = .run → s.faultHold = none → (s.zone (zoneOf b)).state ≠ .wet →
        (s.branch b).state ≠ .vacant → (s.branch b).state ≠ .noflow →
        exec (.admitBranch .rm [tag]) s = .next (s.answering .rm 0x12 { status := .wrongState, body := [] }))) ∧
  (∀ (s : State) (b : BranchId) (tag : Byte), Ready s .rm → Carries s b tag.toNat →
      s.mode = .run → s.faultHold = none → (s.zone (zoneOf b)).state ≠ .wet →
      ((s.branch b).state = .vacant ∨ (s.branch b).state = .noflow) →
      exec (.admitBranch .rm [tag]) s =
        .next ((notifyAll .branchChanged (s.setBranch b
          { state := .priming, attempts := 1, timer := some (.start s.params.primeWindow), proof := 0, ttl := none, pin := none,
            target := none, supply := (s.entry b).primePosition, ret := .opened, subPhase := none, reason := none,
            isolationMark := (s.branch b).isolationMark, hot := false })).answering .rm 0x12
          { status := .ok, body := [] }))

/-- R56, R57: RELEASE of an admitted branch takes it to VACANT with its valves closed, its record at rest and both plan
copies at their defaults; from any other state it is refused with WRONG_STATE. -/
def Obligations.ReleaseRestsTheBranch : Prop :=
  ∀ (s : State) (b : BranchId) (tag : Byte), Ready s .rm → Carries s b tag.toNat →
    ((s.branch b).state ∈ [BranchState.priming, .backoff, .noflow, .flowing, .setback, .pinned] →
      exec (.release .rm [tag]) s =
        .next ((notifyAll .branchChanged
          ((s.withPlan b { demand := 0, floor := 100, cap := 2000, weight := 8 }).setBranch b
            { state := .vacant, attempts := 0, timer := none, proof := 0, ttl := none, pin := none, target := none,
              supply := 0, ret := .closed, subPhase := none, reason := none,
              isolationMark := (s.branch b).isolationMark, hot := false })).answering .rm 0x13
          { status := .ok, body := [] })) ∧
    ((s.branch b).state ∈ [BranchState.unmapped, .vacant, .isolating, .isolated, .isolateFault] →
      exec (.release .rm [tag]) s = .next (s.answering .rm 0x13 { status := .wrongState, body := [] }))

/-- R54, R55: PIN takes a FLOWING or SETBACK branch to PINNED at the saturated position, moves a PINNED one without a change
of state, and is refused elsewhere; UNPIN takes a PINNED branch to FLOWING at its pin position with its TTL started, and is
refused elsewhere. -/
def Obligations.PinAndUnpinMoveTheBranch : Prop :=
  ∀ (s : State) (b : BranchId) (tag : Byte) (position : Nat), Ready s .rm → Carries s b tag.toNat → position < 65536 →
    ((s.branch b).state = .flowing ∨ (s.branch b).state = .setback →
      exec (.pin .rm (tag :: byte2 position)) s =
        .next ((notifyAll .branchChanged (s.setBranch b
          { state := .pinned, attempts := 0, timer := none, proof := 0, ttl := none, pin := some (min position 1000),
            target := none, supply := min position 1000, ret := .opened, subPhase := none, reason := none,
            isolationMark := (s.branch b).isolationMark, hot := false })).answering .rm 0x14
          { status := if 1000 < position then .clamped else .ok, body := [] })) ∧
    ((s.branch b).state = .pinned →
      exec (.pin .rm (tag :: byte2 position)) s =
        .next ((s.setBranch b { s.branch b with pin := some (min position 1000), supply := min position 1000 }).answering
          .rm 0x14 { status := if 1000 < position then .clamped else .ok, body := [] })) ∧
    ((s.branch b).state ≠ .flowing → (s.branch b).state ≠ .setback → (s.branch b).state ≠ .pinned →
      exec (.pin .rm (tag :: byte2 position)) s =
        .next (s.answering .rm 0x14 { status := .wrongState, body := [] })) ∧
    (∀ x, (s.branch b).state = .pinned → (s.branch b).pin = some x →
      exec (.unpin .rm [tag]) s =
        .next ((notifyAll .branchChanged (s.setBranch b
          { state := .flowing, attempts := 0, timer := none, proof := 0,
            ttl := if (s.entry b).ttlPolicy = .none then none else some (.start (s.entry b).ttlTime), pin := none, target := none,
            supply := x, ret := .opened, subPhase := none, reason := none,
            isolationMark := (s.branch b).isolationMark, hot := false })).answering .rm 0x15
          { status := .ok, body := [] })) ∧
    ((s.branch b).state ≠ .pinned →
      exec (.unpin .rm [tag]) s = .next (s.answering .rm 0x15 { status := .wrongState, body := [] }))

/-- R45, R46, R52: the end of a priming window takes the branch to BACKOFF below RETRY_LIMIT and else to NOFLOW with
PRIME_EXHAUSTED; the end of a backoff interval primes it again with one more attempt; the end of a TTL outside HOLD takes
it to SETBACK, all else of its record kept. -/
def Obligations.LifecycleTimersRunOut : Prop :=
  ∀ (s : State) (after : Nat) (b : BranchId), s.running = true →
    let u := s.elapse after
    let x := u.branch b
    let ended (t : Option Timer) : Prop := ∃ r, t = some r ∧ r.steps = 0
    (x.state = .priming → ended x.timer → x.attempts < s.params.retryLimit →
      exec (.primeWindowExpiry after b) s =
        .next (notifyAll .branchChanged (u.setBranch b
          { state := .backoff, attempts := x.attempts, timer := some (.start (10 * min (2 ^ x.attempts) 64)), proof := 0,
            ttl := none, pin := none, target := none, supply := 0, ret := .closed, subPhase := none, reason := none,
            isolationMark := x.isolationMark, hot := false }))) ∧
    (x.state = .priming → ended x.timer → s.params.retryLimit ≤ x.attempts →
      exec (.primeWindowExpiry after b) s =
        .next (report .primeExhausted (.branch b) (some x.attempts) (notifyAll .branchChanged (u.setBranch b
          { state := .noflow, attempts := x.attempts, timer := none, proof := 0, ttl := none,
            pin := none, target := none, supply := 0, ret := .closed, subPhase := none, reason := none,
            isolationMark := x.isolationMark, hot := false })))) ∧
    (x.state = .backoff → ended x.timer →
      exec (.backoffExpiry after b) s =
        .next (notifyAll .branchChanged (u.setBranch b
          { state := .priming, attempts := x.attempts + 1, timer := some (.start s.params.primeWindow), proof := 0,
            ttl := none, pin := none, target := none, supply := (s.entry b).primePosition, ret := .opened,
            subPhase := none, reason := none, isolationMark := x.isolationMark, hot := false }))) ∧
    (x.state = .flowing → ended x.ttl → s.mode ≠ .hold →
      exec (.ttlExpiry after b) s =
        .next (notifyAll .branchChanged (u.setBranch b { x with state := .setback, ttl := none })))

/-- R36, R52, R71, R109, R125, R129, R135, R145, R150, R169, R194: what a passage of time does to every timer, window and
age of a running part, each in steps of 100 ms from its own start (notes/assumptions/3.md), outside HOLD for a TTL and not
to a paused confirm timer; that the marks of the leases which fall in it are taken at their moments
(notes/assumptions/24.md); and that it does nothing but move the clock while the part does not run. -/
def Obligations.TimeRunsTheTimers : Prop :=
  ∀ (s : State) (ms : Nat),
    let down (t : Timer) : Timer :=
      if (t.part + ms) / 100 < t.steps then { steps := t.steps - (t.part + ms) / 100, part := (t.part + ms) % 100 }
      else { steps := 0, part := 0 }
    let up (t : Timer) : Timer := { steps := t.steps + (t.part + ms) / 100, part := (t.part + ms) % 100 }
    let upTo (limit : Nat) (t : Timer) : Timer :=
      if (up t).steps < limit then up t else { steps := max t.steps limit, part := 0 }
    let u := s.passTime ms
    (s.elapse ms).clock = s.clock + ms ∧
    (s.running = false → s.elapse ms = { s with clock := s.clock + ms }) ∧
    (s.running = true →
      ((∀ d, nextLeaseMark s = some d → ms < d) → s.elapse ms = u) ∧
      (nextLeaseMark s = some ms → s.elapse ms = takeLeaseMarks u) ∧
      (∀ d, nextLeaseMark s = some d → d < ms →
        s.elapse ms = (takeLeaseMarks (s.passTime d)).elapse (ms - d))) ∧
    u = { s with
      clock := s.clock + ms, branches := u.branches, freeze := u.freeze, leases := u.leases, feeds := u.feeds,
      switch := u.switch, startup := u.startup, zones := u.zones, park := u.park,
      store := { s.store with retry := u.store.retry } } ∧
    (∀ b, u.branch b =
      { s.branch b with
        timer := (s.branch b).timer.map down
        ttl := if s.mode = .hold then (s.branch b).ttl else (s.branch b).ttl.map down }) ∧
    u.freeze = s.freeze.map (fun f => { f with age := upTo s.params.freezeLimit f.age }) ∧
    (∀ f, u.lease f = (s.lease f).map fun l => { l with age := if l.phase = .lapsed then l.age else up l.age }) ∧
    (∀ f, u.feed f = { s.feed f with lowTimer := (s.feed f).lowTimer.map (upTo s.params.failoverWindow) }) ∧
    u.switch = s.switch.map (fun w => { w with window := down w.window }) ∧
    u.startup = s.startup.map down ∧
    (∀ z, u.zone z = { s.zone z with
      confirm := (s.zone z).confirm.map fun c => if c.running then { c with remaining := down c.remaining } else c }) ∧
    u.park = s.park.map (fun p => { p with window := down p.window }) ∧
    u.store.retry = s.store.retry.map down

/-! ## The plan and the control cycle -/

/-- R51, R65, R66: SET_DEMAND writes the saturated pending demand and acts on the TTL of a FLOWING REFRESH branch and on a
SETBACK branch; SET_LIMITS writes floor, cap and weight together, unless the saturated floor exceeds the saturated cap;
both are refused with WRONG_STATE in UNMAPPED and VACANT. -/
def Obligations.DemandAndLimitsAreWritten : Prop :=
  ∀ (s : State) (b : BranchId) (tag weight : Byte) (d f c : Nat), Ready s .rm → Carries s b tag.toNat →
    d < 65536 → f < 65536 → c < 65536 →
    let st := (s.branch b).state
    let u := s.setPendingPlan b { s.pendingPlan b with demand := min d 2000 }
    let limited := s.setPendingPlan b
      { s.pendingPlan b with floor := min f 2000, cap := min c 2000, weight := max 1 (min weight.toNat 15) }
    let answer (x : State) : Host.Outcome State Fault Refusal :=
      .next (x.answering .rm 0x18 { status := if 2000 < d then .clamped else .ok, body := [] })
    ((st = .unmapped ∨ st = .vacant) →
      exec (.setDemand .rm (tag :: byte2 d)) s = .next (s.answering .rm 0x18 { status := .wrongState, body := [] }) ∧
      exec (.setLimits .rm (tag :: (byte2 f ++ byte2 c ++ [weight]))) s =
        .next (s.answering .rm 0x19 { status := .wrongState, body := [] })) ∧
    (st = .flowing → (s.entry b).ttlPolicy = .refresh →
      exec (.setDemand .rm (tag :: byte2 d)) s =
        answer (u.setBranch b { s.branch b with ttl := some (.start (s.entry b).ttlTime) })) ∧
    (st = .flowing → (s.entry b).ttlPolicy ≠ .refresh → exec (.setDemand .rm (tag :: byte2 d)) s = answer u) ∧
    (st = .setback →
      exec (.setDemand .rm (tag :: byte2 d)) s =
        answer (notifyAll .branchChanged (u.setBranch b
          { s.branch b with
            state := .flowing
            ttl := if (s.entry b).ttlPolicy = .none then none else some (.start (s.entry b).ttlTime) }))) ∧
    (st ∈ [BranchState.priming, .backoff, .noflow, .pinned, .isolating, .isolated, .isolateFault] →
      exec (.setDemand .rm (tag :: byte2 d)) s = answer u) ∧
    (st ≠ .unmapped → st ≠ .vacant → min c 2000 < min f 2000 →
      exec (.setLimits .rm (tag :: (byte2 f ++ byte2 c ++ [weight]))) s =
        .next (s.answering .rm 0x19 { status := .badValue, body := [] })) ∧
    (st ≠ .unmapped → st ≠ .vacant → min f 2000 ≤ min c 2000 →
      exec (.setLimits .rm (tag :: (byte2 f ++ byte2 c ++ [weight]))) s =
        .next (limited.answering .rm 0x19
          { status := if 2000 < f ∨ 2000 < c ∨ weight.toNat = 0 ∨ 15 < weight.toNat then .clamped else .ok, body := [] }))

/-- R69 to R71: FREEZE takes or renews the freeze, or finds the other port holding it; THAW ends the port's own; the expiry
at FREEZE_LIMIT ends it with FREEZE_EXPIRED on the holder's port, whatever that port is doing, and does nothing before. -/
def Obligations.TheFreezeIsHeldByOnePort : Prop :=
  let held (k : Holder) (age : Timer) : Option Freeze := some { holder := k, age := age }
  (∀ (s : State) (p : Port) (h : Holder), Ready s p → p = h.port →
    let ok (x : State) (code : Byte) : Host.Outcome State Fault Refusal :=
      .next (x.answering p code { status := .ok, body := [] })
    (s.freeze = none → exec (.freeze p []) s = ok { s with freeze := held h (.start 0) } 0x1A) ∧
    (∀ age, s.freeze = held h age → exec (.freeze p []) s = ok { s with freeze := held h (.start 0) } 0x1A) ∧
    (∀ k age, s.freeze = held k age → k ≠ h →
      exec (.freeze p []) s = .next (s.answering p 0x1A { status := .heldByOther, body := [] }) ∧
      exec (.thaw p []) s = .next (s.answering p 0x1B { status := .heldByOther, body := [] })) ∧
    (s.freeze = none → exec (.thaw p []) s = ok s 0x1B) ∧
    (∀ age, s.freeze = held h age → exec (.thaw p []) s = ok { s with freeze := none } 0x1B)) ∧
  (∀ (s : State) (after : Nat), s.running = true →
    let u := s.elapse after
    (∀ h age, u.freeze = held h age → s.params.freezeLimit ≤ age.steps →
      exec (.freezeExpiry after) s = .next (notify h.port .freezeExpired { u with freeze := none })) ∧
    (∀ h age, u.freeze = held h age → age.steps < s.params.freezeLimit → exec (.freezeExpiry after) s = .next u) ∧
    (u.freeze = none → exec (.freezeExpiry after) s = .next u))

/-- R74, R75, R77: a free cycle that is due in FREE timing starts now; the head of the schedule that is due in LOCKED timing
starts now and leaves the schedule; a free cycle not yet due or asked for in LOCKED timing, and a further cycle not yet
due, on an empty schedule or in FREE timing, does not start. -/
def Obligations.CyclesStartWhenTheyAreDue : Prop :=
  ∀ (s : State) (after : Nat), s.running = true →
    let u := s.elapse after
    let free := s.timer.lastStart.getD s.timer.origin + s.params.cyclePeriod
    (s.timer.timing = .free → free ≤ s.clock + after →
      exec (.freeCycleStart after) s =
        .next (allotmentCycle { u with timer := { s.timer with lastStart := some (s.clock + after) } })) ∧
    (s.clock + after < free → exec (.freeCycleStart after) s = .next u) ∧
    (s.timer.timing = .locked → exec (.freeCycleStart after) s = .next u) ∧
    (∀ t rest, s.timer.timing = .locked → s.timer.further = t :: rest → t ≤ s.clock + after →
      exec (.lockedCycleStart after) s =
        .next (allotmentCycle
          { u with timer := { s.timer with further := rest, lastStart := some (s.clock + after) } })) ∧
    (∀ t rest, s.timer.timing = .locked → s.timer.further = t :: rest → s.clock + after < t →
      exec (.lockedCycleStart after) s = .next u) ∧
    (s.timer.further = [] → exec (.lockedCycleStart after) s = .next u) ∧
    (s.timer.timing = .free → exec (.lockedCycleStart after) s = .next u)

/-- R76 to R78: a mark on the watched input. In FREE timing it becomes the reference, counts toward lock where it is valid,
and at the second valid one locks and starts a cycle; in LOCKED timing a valid one starts a cycle and sets the deadline
and the further cycles, an invalid one loses the lock with MARK_LOST. The loss deadline loses it too and keeps the
reference. A mark on the other input does nothing. -/
def Obligations.MarksLockTheCycleTimer : Prop :=
  ∀ (s : State) (after : Nat) (input : Feed), s.running = true →
    let u := s.elapse after
    let now := s.clock + after
    let m := s.params.markMultiplier
    let valid (i : Nat) : Prop := (s.timer.reference.map fun r => (now - r) / 10 * 10) = some i ∧ 100 * m ≤ i ∧ i ≤ 10000
    let lockedBy (i : Nat) : State := allotmentCycle { u with timer := { s.timer with
      timing := .locked, lockIn := 0, reference := some now, interval := some i, deadline := some (now + 2 * i),
      further := (List.range' 1 (m - 1)).map fun j => now + j * i / m, lastStart := some now } }
    let lost (reference : Option Nat) : State := notifyAll .markLost { u with timer := { s.timer with
      timing := .free, lockIn := 0, reference := reference, interval := none, deadline := none, further := [] } }
    (s.params.cycleMode = .locked → s.activeFeed = input →
      (s.timer.timing = .free → ∀ i, valid i → s.timer.lockIn = 1 → exec (.mark after input) s = .next (lockedBy i)) ∧
      (s.timer.timing = .free → ∀ i, valid i → s.timer.lockIn = 0 →
        exec (.mark after input) s =
          .next { u with timer := { s.timer with lockIn := 1, reference := some now } }) ∧
      (s.timer.timing = .free → (∀ i, ¬ valid i) →
        exec (.mark after input) s =
          .next { u with timer := { s.timer with lockIn := 0, reference := some now } }) ∧
      (s.timer.timing = .locked → ∀ i, valid i → exec (.mark after input) s = .next (lockedBy i)) ∧
      (s.timer.timing = .locked → (∀ i, ¬ valid i) → exec (.mark after input) s = .next (lost (some now)))) ∧
    ((s.params.cycleMode = .free ∨ s.activeFeed ≠ input) → exec (.mark after input) s = .next u) ∧
    (∀ d, s.timer.timing = .locked → s.timer.deadline = some d → d ≤ now →
      exec (.lossDeadline after) s = .next (lost s.timer.reference))

/-- R68, R81, R84 to R99: every cycle swaps the plan unless it is frozen; in PARKING and PARKED it does nothing more; in the
other modes it leaves the plan's pending copy, the map, the measurements, the leases and the feeds alone, moves a position
only in RUN and only of an allotting branch in an ONLINE segment, and writes a target for every allotting branch and for
no other. The targets are those of the fit on the resolved demands, or the floors where no budget is in force; a position
moves by the bounded step toward the target just written; every hot flag is rewritten; BRANCH_HOT is reported for each hot
branch and then BUDGET_BREACH for a breach; and the cycle summary is written whole. -/
def Obligations.ACycleSwapsThenComputes : Prop :=
  ∀ s : State,
    let t := allotmentCycle s
    t.planActive = (if s.freeze = none then s.planPending else s.planActive) ∧ t.planPending = s.planPending ∧
    (s.mode = .parking ∨ s.mode = .parked →
      t = { s with planActive := if s.freeze = none then s.planPending else s.planActive }) ∧
    t = { s with planActive := t.planActive, branches := t.branches, summary := t.summary, incidents := t.incidents,
                 ports := t.ports } ∧
    (∀ b, (t.branch b).state = (s.branch b).state ∧ (t.branch b).ret = (s.branch b).ret ∧
      ((s.branch b).state.isAllotting = false → t.branch b = s.branch b) ∧
      (s.mode ≠ .run ∨ (s.segment (zoneOf b)).link ≠ .online → (t.branch b).supply = (s.branch b).supply) ∧
      (s.mode ≠ .parking → s.mode ≠ .parked → (s.branch b).state.isAllotting = true → (t.branch b).target.isSome = true)) ∧
    (s.mode ≠ .parking → s.mode ≠ .parked →
      let v : State := { s with planActive := t.planActive }
      let bs := allBranches.filter fun b => (s.branch b).state.isAllotting
      let hot (b : BranchId) : Bool := (s.measure b).temperature.any fun x => decide (s.params.hotLimit ≤ x)
      let xs : List Share := bs.map fun b =>
        { branch := b, floor := (v.activePlan b).floor, resolved := resolvedDemand v b, weight := (v.activePlan b).weight }
      let available := (budgetInForce s).map (availableBudget s)
      let r := fitShares available xs
      let told : State :=
        let w := bs.foldl (fun w b =>
          if hot b then report .branchHot (.branch b) ((s.measure b).temperature.map fun x => (x : Int)) w else w) v
        if r.fit = .breach then
          report .budgetBreach .nothing (some (min (sumOver xs (·.floor) - available.getD 0) 32767 : Nat)) w
        else w
      (budgetInForce s = none → r.fit = .floorMode ∧ r.targets = xs.map fun x => (x.branch, x.floor)) ∧
      (∀ b ∈ bs, ∃ n, (b, n) ∈ r.targets) ∧
      (∀ b n, (b, n) ∈ r.targets → (t.branch b).target = some n ∧ (t.branch b).hot = hot b ∧
        (s.mode = .run → (s.segment (zoneOf b)).link = .online →
          (t.branch b).supply =
            ((movePosition (v.setBranch b { s.branch b with target := some n }) b).branch b).supply)) ∧
      t.incidents = told.incidents ∧ t.ports = told.ports ∧
      t.summary =
        { cycleTime := some s.uptime
          mode := s.mode
          feed := s.activeFeed
          fit := r.fit
          budget := (budgetInForce s).map fun n =>
            { inForce := n, primingReserve := primingReserve s, pinnedConsumption := pinnedConsumption s,
              available := availableBudget s n }
          allotting := bs.length
          priming := (allBranches.filter fun b => decide ((s.branch b).state = .priming)).length
          pinned := (allBranches.filter fun b => decide ((s.branch b).state = .pinned)).length
          demand := sumOver xs (·.resolved)
          floors := sumOver xs (·.floor)
          targets := sumOver r.targets (·.2)
          passes := r.passes
          hotBranches := (bs.filter hot).length })

/-! ## Allotment arithmetic -/

/-- R86, R88 to R93: the available budget is the budget less the reserves and the pinned flows, never below 0; the resolved
demand is the cap of a hot branch, the floor of a SETBACK one and the demand else, brought into floor to cap. An unsqueezed
cycle gives every branch its resolved demand and a breach gives every branch its floor. In a water-fill every pass tests
its unfixed branches by spare * W > Dn, fixes those that pass at their resolved demand, takes their headroom from the spare
and goes on without them; the first pass that fixes none gives each of its branches the floor and its share of the spare,
rounded down. In a cycle with a budget that does not end in breach, the targets sum to at most the available budget; the
passes are at most 48; every target of the fit lies between the floor and the resolved demand of its branch. -/
def Obligations.DemandIsResolvedAndFitted : Prop :=
  (∀ (available : Nat) (xs : List Share), xs.length ≤ 48 → (∀ x ∈ xs, x.floor ≤ x.resolved) →
      let r := fitShares (some available) xs
      (r.fit ≠ .breach → sumOver r.targets (·.2) ≤ available) ∧ r.passes ≤ 48 ∧
      (∀ y ∈ r.targets, ∃ x ∈ xs, y.1 = x.branch ∧ x.floor ≤ y.2 ∧ y.2 ≤ x.resolved) ∧
      (r.fit = .breach ↔ available < sumOver xs (·.floor)) ∧
      (r.fit = .unsqueezed ↔ sumOver xs (·.resolved) ≤ available) ∧ r.fit ≠ .floorMode ∧
      (r.fit = .unsqueezed → r.targets = xs.map (fun x => (x.branch, x.resolved)) ∧ r.passes = 0) ∧
      (r.fit = .breach → r.targets = xs.map (fun x => (x.branch, x.floor)) ∧ r.passes = 0) ∧
      (r.fit = .waterFill →
        let dn (ys : List Share) : Nat := (ys.map fun x => x.weight * (x.resolved - x.floor)).sum
        let passes (spare : Nat) (ys : List Share) (x : Share) : Bool := decide (dn ys < spare * x.weight)
        let fixed (spare : Nat) (ys : List Share) : List Share := ys.filter (passes spare ys)
        ∃ rounds : List (Nat × List Share),
          rounds.length = r.passes ∧ rounds.head? = some (available - (xs.map (·.floor)).sum, xs) ∧
          (∀ (k spare : Nat) (ys : List Share) (next : Nat × List Share), rounds[k]? = some (spare, ys) →
            rounds[k + 1]? = some next →
            fixed spare ys ≠ [] ∧
              next = (spare - ((fixed spare ys).map fun x => x.resolved - x.floor).sum,
                ys.filter fun x => !passes spare ys x)) ∧
          ∃ (spare : Nat) (ys : List Share), rounds.getLast? = some (spare, ys) ∧ fixed spare ys = [] ∧
            r.targets.Perm (xs.map fun x => (x.branch,
              if x ∈ ys then x.floor + spare * x.weight * (x.resolved - x.floor) / dn ys else x.resolved)))) ∧
  (∀ (s : State) (b : BranchId) (budget : Nat),
      let e := s.activePlan b
      let hot := ∃ t, (s.measure b).temperature = some t ∧ s.params.hotLimit ≤ t
      ((availableBudget s budget : Int) =
        max 0 ((budget : Int) - ((branchesIn s fun st => decide (st = .priming)).length * s.params.primeReserve : Nat)
          - (((branchesIn s fun st => decide (st = .pinned)).map fun c => (s.measure c).supplyFlow).sum : Nat))) ∧
      (e.floor ≤ e.cap → e.floor ≤ resolvedDemand s b ∧ resolvedDemand s b ≤ e.cap) ∧
      (e.floor ≤ e.cap → hot → resolvedDemand s b = e.cap) ∧
      (e.floor ≤ e.cap → ¬ hot → (s.branch b).state = .setback → resolvedDemand s b = e.floor) ∧
      (¬ hot → (s.branch b).state = .flowing → e.floor ≤ e.demand → e.demand ≤ e.cap → resolvedDemand s b = e.demand) ∧
      (e.floor ≤ e.cap → ¬ hot → (s.branch b).state = .flowing → e.demand < e.floor → resolvedDemand s b = e.floor) ∧
      (e.floor ≤ e.cap → ¬ hot → (s.branch b).state = .flowing → e.cap < e.demand → resolvedDemand s b = e.cap))

/-- R96, R97: the step applied for a flow error, and the position it makes. -/
def Obligations.PositionsMoveByTheBoundedStep : Prop :=
  ∀ (s : State) (b : BranchId) (target : Nat), (s.branch b).target = some target →
    let p := s.params
    let e : Int := (target : Int) - (s.measure b).supplyFlow
    let raw : Int := (e * (s.entry b).gain).tdiv 256
    let bound : Int := if p.convergenceFast then p.stepFast else p.stepSlow
    let x : Int := ((movePosition s b).branch b).supply
    let moved (step : Int) : Int := max 0 (min 1000 ((s.branch b).supply + step))
    (-(p.deadband : Int) ≤ e → e ≤ p.deadband → (s.branch b).supply ≤ 1000 → x = (s.branch b).supply) ∧
    ((p.deadband : Int) < e → x = moved (min raw bound)) ∧
    (e < -(p.deadband : Int) → -(p.leapThreshold : Int) ≤ e → x = moved (max raw (-bound))) ∧
    (e < -(p.deadband : Int) → e < -(p.leapThreshold : Int) → x = moved (max raw (-(p.leapLimit : Int)))) ∧
    (movePosition s b = s.setBranch b { s.branch b with supply := ((movePosition s b).branch b).supply })

/-! ## Tuning -/

/-- R24, R48, R71, R80, R101, R118, R134, R151, R170, R186: SET_TUNING of every parameter number and value. An unknown
number and a choice code outside its list are refused; a numeric value is saturated into its range, with CLAMPED,
CYCLE_PERIOD rounded down to 10 ms; only the parameter named changes, but that a PROOF_PRESSURE lowers a FAIL_PRESSURE at
or above it and a FAIL_PRESSURE stays below it; the answer carries the number and the value now in force. A CYCLE_MODE
that changes turns the Cycle Timer; a FREEZE_LIMIT at or below the freeze age ends the freeze; a FAILOVER_WINDOW at or
below a running low-pressure timer marks its feed FAILED, feed A before feed B; a DRIP_THRESHOLD caps every accumulator
and judges its level afresh, with BRANCH_SUSPECT where it rises. -/
def Obligations.SetTuningWritesAndActs : Prop :=
  (∀ (s : State) (p : Port) (number : Byte) (v : BitVec 32), Ready s p → (p = .rm ∨ p = .sp) →
    let n := number.toNat
    let ask := exec (.setTuning p (number :: byte4 v.toNat)) s
    let refused : Host.Outcome State Fault Refusal := .next (s.answering p 0x1C { status := .badValue, body := [] })
    let answered (x : State) (clamped : Bool) : Host.Outcome State Fault Refusal :=
      .next (x.answering p 0x1C
        { status := if clamped then .clamped else .ok, body := number :: signed4 (x.params.value n) })
    let clamp (lo hi : Nat) : Nat := (max (lo : Int) (min v.toInt hi)).toNat
    let outside (lo hi : Nat) : Bool := decide (v.toInt < lo ∨ hi < v.toInt)
    let only (q : Params) (x : Int) : Prop := q.value n = x ∧ ∀ m, m ≠ n → q.value m = s.params.value m
    let ranges : List (Nat × Nat × Nat) :=
      [(1, 50, 1000), (2, 10, 500), (3, 50, 1200), (4, 1, 8), (5, 0, 500), (8, 1, 12), (10, 0, 100), (12, 1, 100),
       (13, 1, 200), (14, 50, 2000), (15, 1, 500), (16, 300, 900), (21, 50, 600), (24, 0, 200), (26, 1, 100),
       (27, 50, 3000), (28, 100, 1200), (29, 0, 100), (30, 100, 3000)]
    (n = 0 ∨ 30 < n → ask = refused) ∧
    (n ∈ [6, 11, 17, 22, 23] → (v.toInt < 0 ∨ 1 < v.toInt) → ask = refused) ∧
    (n ∈ [11, 17, 22, 23] → 0 ≤ v.toInt → v.toInt ≤ 1 →
      ∃ q, only q v.toInt ∧ ask = answered { s with params := q } false) ∧
    (∀ lo hi, (n, lo, hi) ∈ ranges → ∃ q, only q (clamp lo hi) ∧ ask = answered { s with params := q } (outside lo hi)) ∧
    (n = 7 → ∃ q, only q (clamp 100 2000 / 10 * 10 : Nat) ∧ ask = answered { s with params := q } (outside 100 2000)) ∧
    (n = 18 → ask = answered
      { s with params := { s.params with
          proofPressure := clamp 50 600
          failPressure := if clamp 50 600 ≤ s.params.failPressure then clamp 50 600 - 10 else s.params.failPressure } }
      (outside 50 600)) ∧
    (n = 19 → ask =
      if s.params.proofPressure ≤ clamp 20 500 then
        answered { s with params := { s.params with failPressure := s.params.proofPressure - 10 } } true
      else answered { s with params := { s.params with failPressure := clamp 20 500 } } (outside 20 500)) ∧
    (∀ mode : Timing, n = 6 → v.toInt = mode.code → ask =
      if s.params.cycleMode = mode then answered s false
      else answered
        { s with
          params := { s.params with cycleMode := mode }
          timer := { s.timer with timing := .free, lockIn := 0, reference := none, interval := none, deadline := none,
                                  further := [] } } false) ∧
    (n = 9 →
      let w : State := { s with params := { s.params with freezeLimit := clamp 10 600 } }
      ((∀ f ∈ s.freeze, f.age.steps < clamp 10 600) → ask = answered w (outside 10 600)) ∧
      (∀ f ∈ s.freeze, clamp 10 600 ≤ f.age.steps →
        ask = answered (notify f.holder.port .freezeExpired { w with freeze := none }) (outside 10 600))) ∧
    (n = 20 →
      let w : State := { s with params := { s.params with failoverWindow := clamp 5 100 } }
      let t := lowPressureEnds .b (lowPressureEnds .a w)
      ask = answered t (outside 5 100) ∧ ((∀ f, ∀ k ∈ (s.feed f).lowTimer, k.steps < clamp 5 100) → t = w) ∧
      (∀ f, ∀ k ∈ (s.feed f).lowTimer, clamp 5 100 ≤ k.steps → lowPressureEnds f w = markFailed f w ∧
        (t.feed f).failed = true)) ∧
    (n = 25 →
      let w : State := { s with params := { s.params with dripThreshold := clamp 100 10000 } }
      ask = answered (allBranches.foldl rejudge w) (outside 100 10000))) ∧
  (∀ (s : State) (b : BranchId),
    let x := s.drip b
    let threshold := s.params.dripThreshold
    let a := min x.amount (4 * threshold)
    let t := rejudge s b
    (t.drip b).amount = a ∧ (t.drip b).lastImbalance = x.lastImbalance ∧
    (2 * threshold ≤ a → (t.drip b).level = .hard) ∧
    (threshold ≤ a → a < 2 * threshold → (t.drip b).level = .suspect) ∧
    (a < threshold → threshold ≤ 2 * a → (t.drip b).level = if x.level = .none then .none else .suspect) ∧
    (2 * a < threshold → (t.drip b).level = .none) ∧
    t = (if x.level.rank < (t.drip b).level.rank then
      report .branchSuspect (.branch b) (some x.lastImbalance) (s.setDrip b (t.drip b)) else s.setDrip b (t.drip b)))

/-! ## Budget leases -/

/-- R106 to R108, R113: an accepted GRANT_BUDGET writes its own feed's lease whole, BOUND at age 0, with the duration
brought into 30 to 86400 s and rounded down to 100 ms, and with the given marks where they stand in order, the default
ones where they are absent or do not; CLAMPED tells of a saturated duration or of replaced marks. WITHDRAW_BUDGET takes
its own feed's lease to NONE, with BUDGET_LAPSED where it was the active feed's and counted. -/
def Obligations.BudgetsAreGrantedAndWithdrawn : Prop :=
  (∀ (s : State) (f : Feed) (budget ms m1 m2 : Nat), Ready s f.port → budget < 65536 → ms < 4294967296 →
      m1 < 4294967296 → m2 < 4294967296 →
      let d := max 30000 (min ms 86400000) / 100
      let saturated := ms < 30000 ∨ 86400000 < ms
      let inOrder := 0 < m1 / 100 ∧ m1 / 100 < m2 / 100 ∧ m2 / 100 < d
      let bound (t1 t2 : Nat) : State :=
        s.setLease f (some { phase := .bound, budget := budget, duration := d, t1 := t1, t2 := t2, age := .start 0 })
      let granted (x : State) (clamped : Bool) : Host.Outcome State Fault Refusal :=
        .next (x.answering f.port 0x20 { status := if clamped then .clamped else .ok, body := [] })
      exec (.grantBudget f.port (byte2 budget ++ byte4 ms)) s = granted (bound (d / 2) (d * 7 / 8)) (decide saturated) ∧
      (inOrder → exec (.grantBudget f.port (byte2 budget ++ byte4 ms ++ byte4 m1 ++ byte4 m2)) s =
        granted (bound (m1 / 100) (m2 / 100)) (decide saturated)) ∧
      (¬ inOrder → exec (.grantBudget f.port (byte2 budget ++ byte4 ms ++ byte4 m1 ++ byte4 m2)) s =
        granted (bound (d / 2) (d * 7 / 8)) true)) ∧
  (∀ (s : State) (f : Feed), Ready s f.port →
      ((∃ l, s.lease f = some l ∧ l.phase ≠ .lapsed) → s.activeFeed = f →
        exec (.withdrawBudget f.port []) s =
          .next ((notifyAll .budgetLapsed (s.setLease f none)).answering f.port 0x21 { status := .ok, body := [] })) ∧
      (((∃ l, s.lease f = some l ∧ l.phase = .lapsed) ∨ s.lease f = none ∨ s.activeFeed ≠ f) →
        exec (.withdrawBudget f.port []) s =
          .next ((s.setLease f none).answering f.port 0x21 { status := .ok, body := [] })))

/-- R105, R109, R110, R112: t1 takes a BOUND lease to RENEW_DUE with the notice on the granting port; t2 takes a RENEW_DUE
one to EXPIRING with LEASE_EXPIRING on all ports and makes the handover test; the duration takes an EXPIRING one to
LAPSED, with LEASE_LAPSED and BUDGET_LAPSED for the active feed and silently for the standby. The mark falls where its
command says so and, as time passes, before any other command that comes with the same moment (notes/assumptions/24.md). -/
def Obligations.LeaseMarksAreReached : Prop :=
  ∀ (s : State) (after : Nat) (f : Feed) (l : Lease), s.running = true →
    let u := s.elapseBefore after
    u.lease f = some l → leaseMarkDue u f.other = false →
    let falls (c : Instr) (t : State) : Prop := exec c s = .next t ∧ s.elapse after = t
    (l.phase = .bound → l.t1 ≤ l.age.steps → l.age.steps < l.t2 →
      falls (.leaseT1Reached after f) (notify f.port .renewDue (u.setLease f (some { l with phase := .renewDue })))) ∧
    (l.phase = .renewDue → l.t2 ≤ l.age.steps → l.age.steps < l.duration →
      falls (.leaseT2Reached after f)
        (makeHandoverTest f (notifyAll .leaseExpiring (u.setLease f (some { l with phase := .expiring }))))) ∧
    (l.phase = .expiring → l.duration ≤ l.age.steps → s.activeFeed = f →
      falls (.leaseLapse after f)
        (notifyAll .budgetLapsed (report .leaseLapsed (.feed f) (some (min l.budget 32767))
          (u.setLease f (some { l with phase := .lapsed }))))) ∧
    (l.phase = .expiring → l.duration ≤ l.age.steps → s.activeFeed ≠ f →
      falls (.leaseLapse after f) (u.setLease f (some { l with phase := .lapsed }))) ∧
    ((l.phase ≠ .bound ∨ l.age.steps < l.t1) → exec (.leaseT1Reached after f) s = .next (s.elapse after)) ∧
    ((l.phase ≠ .renewDue ∨ l.age.steps < l.t2) → exec (.leaseT2Reached after f) s = .next (s.elapse after)) ∧
    ((l.phase ≠ .expiring ∨ l.age.steps < l.duration) → exec (.leaseLapse after f) s = .next (s.elapse after))

/-- R111: the handover test records the first condition that fails; where none does it records STARTED and begins a switch
to the standby feed in OPENING with the requester handover. -/
def Obligations.TheHandoverTestFailsOnTheFirst : Prop :=
  ∀ (s : State) (f : Feed),
    let fresh := ∃ l, s.lease f.other = some l ∧ (l.phase = .bound ∨ l.phase = .renewDue)
    let conditions : List (Prop × HandoverResult) :=
      [(s.activeFeed = f, .notActive), (s.params.autoHandover = true, .disabled), (s.feedLock = false, .locked),
       (s.switch = none, .switchInFlight), (s.mode ≠ .safe, .mode), ((s.feed f.other).failed = false, .standbyFailed),
       (fresh, .standbyLease)]
    let recorded (r : HandoverResult) : State := { s with handover := some { feed := f, uptime := s.uptime, result := r } }
    (∀ n (h : n < conditions.length), (∀ m (h' : m < n), (conditions[m]'(by omega)).1) → ¬ conditions[n].1 →
      makeHandoverTest f s = recorded conditions[n].2) ∧
    ((∀ c ∈ conditions, c.1) →
      makeHandoverTest f s =
        { (recorded .started).setFeed f.other { s.feed f.other with inlet := .opened, proof := 0 } with
          switch := some { target := f.other, origin := f, phase := .opening, window := .start s.params.switchWindow,
                           requester := .handover }
          startup := none, bothOpen := false })

/-- R114: a budget is in force exactly when the active feed's lease is BOUND, RENEW_DUE or EXPIRING, and it is that lease's
budget; the standby feed's lease never enters. -/
def Obligations.TheActiveLeaseIsInForce : Prop :=
  ∀ (s : State) (budget : Nat),
    (budgetInForce s = some budget ↔
      ∃ l, s.lease s.activeFeed = some l ∧ (l.phase = .bound ∨ l.phase = .renewDue ∨ l.phase = .expiring) ∧
        l.budget = budget) ∧
    (∀ x, budgetInForce (s.setLease s.activeFeed.other x) = budgetInForce s)

/-! ## Supply feeds -/

/-- R124, R125: SWITCH_FEED by its checks in order: BAD_VALUE for a target code other than A and B, LOCKED, MODE, then
with no switch in flight OK without action for the active feed, FEED_FAILED, or a switch begun; with one in flight OK
without effect for its target, a cancel in OPENING, TOO_LATE in CLOSING_OLD. -/
def Obligations.SwitchFeedBeginsCancelsOrIsRefused : Prop :=
  ∀ (s : State) (p : Port) (target : Feed), Ready s p → (p = .rm ∨ p = .ua ∨ p = .ub) →
    let ask := exec (.switchFeed p [BitVec.ofNat 8 target.idx.val]) s
    let plain (st : Status) : Host.Outcome State Fault Refusal := .next (s.answering p 0x24 { status := st, body := [] })
    let open' := s.feedLock = false ∧ s.mode ≠ .safe
    (s.feedLock = true → ask = plain .locked) ∧
    (s.feedLock = false → s.mode = .safe → ask = plain .mode) ∧
    (open' → s.switch = none → target = s.activeFeed → ask = plain .ok) ∧
    (open' → s.switch = none → target ≠ s.activeFeed → (s.feed target).failed = true → ask = plain .feedFailed) ∧
    (open' → s.switch = none → target ≠ s.activeFeed → (s.feed target).failed = false →
      ask = .next (State.answering
        { s.setFeed target { s.feed target with inlet := .opened, proof := 0 } with
          switch := some { target := target, origin := s.activeFeed, phase := .opening, window := .start s.params.switchWindow,
                           requester := if p = .ua then .ua else if p = .ub then .ub else .rm }
          startup := none, bothOpen := false } p 0x24 { status := .ok, body := [] })) ∧
    (∀ w, open' → s.switch = some w → target = w.target → ask = plain .ok) ∧
    (∀ w, open' → s.switch = some w → target ≠ w.target → w.phase = .opening →
      ask = .next (State.answering
        { s.setFeed w.target { s.feed w.target with inlet := .closed } with switch := none } p 0x24
        { status := .ok, body := [] })) ∧
    (∀ w, open' → s.switch = some w → target ≠ w.target → w.phase = .closingOld → ask = plain .tooLate) ∧
    (∀ code : Byte, 2 ≤ code.toNat → exec (.switchFeed p [code]) s = plain .badValue)

/-- R126, R127, R135: the ends of the three windows: SWITCH_FAILED and the target's inlet CLOSED in OPENING, INLET_STUCK in
CLOSING_OLD, and at the start-up window's end the fallback to the other feed, with FEED_CHANGED on all ports, the Cycle
Timer turned and FEED_FAILOVER, unless that feed is FAILED. -/
def Obligations.FeedWindowsRunOut : Prop :=
  ∀ (s : State) (after : Nat), s.running = true →
    let u := s.elapse after
    (∀ w, u.switch = some w → w.window.steps = 0 → w.phase = .opening →
      exec (.switchWindowExpiry after) s =
        .next (report .switchFailed (.feed w.target) (some (u.pressure w.target))
          { u.setFeed w.target { u.feed w.target with inlet := .closed } with switch := none })) ∧
    (∀ w, u.switch = some w → w.window.steps = 0 → w.phase = .closingOld →
      exec (.closingOldExpiry after) s = .next (report .inletStuck (.feed w.origin) none { u with switch := none })) ∧
    (∀ k, u.startup = some k → k.steps = 0 → (u.feed s.activeFeed.other).failed = true →
      exec (.startupWindowExpiry after) s = .next { u with startup := none }) ∧
    (∀ k, u.startup = some k → k.steps = 0 → (u.feed s.activeFeed.other).failed = false →
      ∃ t, exec (.startupWindowExpiry after) s = .next t ∧
        t = report .feedFailover (.feed s.activeFeed) (some (u.pressure s.activeFeed)) (notifyAll .feedChanged
          { (u.setFeed s.activeFeed.other { u.feed s.activeFeed.other with inlet := .opened }).setFeed s.activeFeed
              { u.feed s.activeFeed with inlet := .closed } with
            startup := none
            activeFeed := s.activeFeed.other
            timer := { s.timer with timing := .free, lockIn := 0, reference := none, interval := none, deadline := none,
                                    further := [] } }) ∧
        t.startup = none ∧ t.activeFeed = s.activeFeed.other ∧
        (t.feed s.activeFeed.other).inlet = .opened ∧ (t.feed s.activeFeed).inlet = .closed ∧
        (t.feed s.activeFeed).failed = (u.feed s.activeFeed).failed ∧ t.timer.timing = .free ∧
        t.timer.reference = none ∧ t.leases = u.leases ∧ t.branches = u.branches ∧ t.mode = s.mode)

/-- R126, R128 to R132: a low-pressure timer at FAILOVER_WINDOW marks its feed FAILED. With the other feed clear, the active
feed's mark fails over where FAILOVER_ENABLE is on, with FEED_FAILOVER, FEED_CHANGED and the Cycle Timer turned, and is
only reported as FEED_FAILOVER where it is off; a standby feed's mark fails an OPENING switch toward it, with
SWITCH_FAILED, and does nothing more otherwise, a switch in CLOSING_OLD included. With the other feed FAILED both inlets
are commanded OPEN, BOTH_FEEDS_FAILED is reported, and the fault-hold cause is taken, after an OPENING switch toward the
feed has failed. That a failover also ends a both-open condition which a warm reset has kept is DEDUCED
(notes/assumptions/14.md). -/
def Obligations.LowPressureMarksTheFeed : Prop :=
  ∀ (s : State) (after : Nat) (t : Timer) (f : Feed), s.running = true → ((s.elapse after).feed f).lowTimer = some t →
    s.params.failoverWindow ≤ t.steps →
    let u := s.elapse after
    let marked := u.setFeed f { u.feed f with failed := true, lowTimer := none, proof := 0 }
    let toward (w : Switch) : Prop := w.target = f ∧ w.phase = .opening
    let failed : State := report .switchFailed (.feed f) (some (u.pressure f))
      { marked.setFeed f { marked.feed f with inlet := .closed } with switch := none }
    let bothOpened (x : State) : State :=
      faultCause .bothFeedsFailed (report .bothFeedsFailed .nothing none
        { (x.setFeed .a { x.feed .a with inlet := .opened }).setFeed .b { x.feed .b with inlet := .opened } with
          switch := none, startup := none, bothOpen := true })
    ∃ x, exec (.lowPressureExpiry after f) s = .next x ∧
      (x.feed f).failed = true ∧ (x.feed f).lowTimer = none ∧ (x.feed f).proof = 0 ∧
      x.branches = u.branches ∧ x.leases = u.leases ∧ x.params = s.params ∧
      ((u.feed f.other).failed = false → s.activeFeed = f → s.params.failoverEnable = true →
        x = report .feedFailover (.feed f) (some (u.pressure f))
          { notifyAll .feedChanged
              { (marked.setFeed f.other { u.feed f.other with inlet := .opened }).setFeed f
                  { marked.feed f with inlet := .closed } with
                activeFeed := f.other
                timer := { s.timer with timing := .free, lockIn := 0, reference := none, interval := none,
                                        deadline := none, further := [] } } with
            switch := none, startup := none, bothOpen := false } ∧
        x.faultHold = s.faultHold ∧ x.mode = s.mode) ∧
      ((u.feed f.other).failed = false → s.activeFeed = f → s.params.failoverEnable = false →
        x = report .feedFailover (.feed f) (some (u.pressure f)) marked ∧ x.activeFeed = f ∧ x.switch = u.switch ∧
        x.startup = u.startup ∧ (x.feed f).inlet = (u.feed f).inlet ∧ x.feed f.other = u.feed f.other ∧
        x.faultHold = s.faultHold) ∧
      ((u.feed f.other).failed = false → s.activeFeed ≠ f → (∀ w ∈ u.switch, ¬ toward w) → x = marked) ∧
      (∀ w, (u.feed f.other).failed = false → s.activeFeed ≠ f → u.switch = some w → toward w → x = failed) ∧
      ((u.feed f.other).failed = true → (∀ w ∈ u.switch, ¬ toward w) → x = bothOpened marked) ∧
      (∀ w, (u.feed f.other).failed = true → u.switch = some w → toward w → x = bothOpened failed) ∧
      ((u.feed f.other).failed = true →
        x.activeFeed = s.activeFeed ∧ x.switch = none ∧ x.startup = none ∧ x.bothOpen = true ∧
        (x.feed .a).inlet = .opened ∧ (x.feed .b).inlet = .opened ∧ x.faultHold ≠ none)

/-- R133: LOCK_FEED sets the lock and nothing else, and once set the lock stays set in every step but a POWER_ON. -/
def Obligations.TheFeedLockIsSetForGood : Prop :=
  (∀ s : State, Ready s .rm →
      exec (.lockFeed .rm []) s = .next (State.answering { s with feedLock := true } .rm 0x25 { status := .ok, body := [] })) ∧
  (∀ s t : State, s.feedLock = true → s.pending.head? ≠ some .powerOn → step s = .next t → t.feedLock = true)

/-! ## Field scanning -/

/-- R19, R20, R23, R28, R30: a round that is due starts with segment module 0; the next module is served when no exchange
is in progress; each begins an exchange with the next exchange number and the command built from the records as they
stand: for a segment module the supply position and the return command of its three branches, for the head module the two
inlet commands; a miss ends it and moves the module's link state; at the third a segment's SEGMENT_LOST is reported and
its zone's confirm timer paused (R150), and the head's HEAD_LOST is reported and both low-pressure timers stopped. A
commanded miss is taken at any moment (DESIGN CHOICE, notes/assumptions/3.md). -/
def Obligations.ExchangesBeginAndMiss : Prop :=
  (∀ (x : State) (z : SegId),
    commandFor x (segmentModule z) =
      .segment ((x.branch (branchAt z 0)).supply, (x.branch (branchAt z 0)).ret)
        ((x.branch (branchAt z 1)).supply, (x.branch (branchAt z 1)).ret)
        ((x.branch (branchAt z 2)).supply, (x.branch (branchAt z 2)).ret) ∧
    commandFor x headModule = .head (x.feed .a).inlet (x.feed .b).inlet ∧
    (segmentModule z).val = z.val ∧ headModule.val = 16 ∧ ∀ i : Fin 3, (branchAt z i).val = 3 * z.val + i.val) ∧
  ∀ (s : State) (after : Nat), s.running = true →
    let u := s.elapse after
    let begun (r : Scanner) (m : ModuleId) : State := { u with scanner := { r with
      number := s.scanner.number + 1, exchange := some { module := m, command := commandFor u m, began := s.clock + after },
      next := m.val + 1 } }
    (s.scanner.exchange = none → 17 ≤ s.scanner.next → s.scanner.roundStart + s.scanner.roundInterval ≤ s.clock + after →
      exec (.roundStart after) s =
        .next (begun { s.scanner with roundStart := s.clock + after, roundInterval := s.params.scanInterval } 0)) ∧
    (∀ m : ModuleId, s.scanner.exchange = none → s.scanner.next = m.val →
      exec (.exchangeStart after) s = .next (begun s.scanner m)) ∧
    (∀ (z : SegId) (x : Exchange), s.scanner.exchange = some x → x.module = segmentModule z →
      ∃ t, exec (.exchangeMiss after) s = .next t ∧ t.scanner = { s.scanner with exchange := none } ∧
        (let old := s.segment z
         (t.segment z).link = (if old.link = .stale ∨ 2 ≤ old.misses then .stale else .missing) ∧
         (t.segment z).misses = (if old.link = .stale ∨ 2 ≤ old.misses then 3 else old.misses + 1) ∧
         (t.segment z).lastLevel = old.lastLevel ∧ t.measured = s.measured ∧ t.head = s.head ∧
         (old.link ≠ .stale → 2 ≤ old.misses →
           (∃ r ∈ t.incidents.records, r.kind = .segmentLost ∧ r.subject = .zone z) ∨ 32 ≤ t.incidents.records.length) ∧
         (old.link ≠ .stale → 2 ≤ old.misses →
           t.incidents = (report .segmentLost (.zone z) none u).incidents ∧
           t.zone z = { u.zone z with confirm := (u.zone z).confirm.map fun c => { c with running := false } }) ∧
         (old.link = .stale ∨ old.misses < 2 → t.incidents = u.incidents ∧ t.zone z = u.zone z) ∧
         (∀ y, y ≠ z → t.zone y = u.zone y) ∧
         (∀ y, y ≠ z → t.segment y = s.segment y) ∧ t.branches = u.branches)) ∧
    (∀ x : Exchange, s.scanner.exchange = some x → x.module = headModule →
      ∃ t, exec (.exchangeMiss after) s = .next t ∧ t.segments = s.segments ∧
        t.head = { s.head with
          link := if s.head.link = .stale ∨ 2 ≤ s.head.misses then .stale else .missing
          misses := if s.head.link = .stale ∨ 2 ≤ s.head.misses then 3 else s.head.misses + 1 } ∧
        (s.head.link ≠ .stale → 2 ≤ s.head.misses →
          t.incidents = (report .headLost .nothing none u).incidents ∧
          ∀ f, t.feed f = { u.feed f with lowTimer := none }) ∧
        (s.head.link = .stale ∨ s.head.misses < 2 → t.incidents = u.incidents ∧ t.feeds = u.feeds) ∧
        t.branches = u.branches ∧ t.zones = u.zones)

/-- R19, R21, R22, R25 to R28, R150: a segment report that echoes the exchange in progress with its segment before the
answer window has closed enters every value saturated, the raw level, and ONLINE with no misses, and resumes a paused
confirm timer; then the three branches are judged in ascending index, the Drip Monitor takes its step, and the park test
follows. It leaves the measurements of every other branch and segment, the plan, the leases and the feeds alone. A report
of a segment that is not addressed, one with another exchange number and a late one are a miss, and one with no exchange
in progress is discarded (DEDUCED, notes/assumptions/15.md; the window in whole ms, notes/assumptions/3.md). -/
def Obligations.ASegmentReportIsEnteredWhole : Prop :=
  ∀ (s : State) (after : Nat) (z : SegId) (r : SegmentReport), s.running = true →
    let u := s.elapse after
    let range (hi : Nat) (v : Int) : Nat := (max 0 (min v hi)).toNat
    let enteredAs (x : PositionReport) : Measurement :=
      { supplyFlow := range 3000 x.supplyFlow, returnFlow := range 3000 x.returnFlow,
        temperature := x.temperature.map (range 1000), supplyFeedback := range 1000 x.supplyFeedback,
        returnFeedback := x.returnFeedback }
    let filled : State :=
      (((((({ u with scanner := { s.scanner with exchange := none } } : State).setMeasure (branchAt z 0)
        (enteredAs r.first)).setMeasure (branchAt z 1) (enteredAs r.second)).setMeasure (branchAt z 2)
        (enteredAs r.third)).setSegment z { link := .online, misses := 0, lastLevel := r.level }).setZone z
        { u.zone z with confirm := (u.zone z).confirm.map fun c => { c with running := true } })
    (∀ x, s.scanner.exchange = some x → x.module = segmentModule z → r.number = s.scanner.number →
      s.clock + after < x.began + 4 →
      ∃ t, exec (.segmentReport after z r) s = .next t ∧
        t = parkTest z (dripStep z r.level
          (judgeBranch (judgeBranch (judgeBranch filled (branchAt z 0)) (branchAt z 1)) (branchAt z 2))) ∧
        t.scanner = { s.scanner with exchange := none } ∧
        t.measure (branchAt z 0) = enteredAs r.first ∧ t.measure (branchAt z 1) = enteredAs r.second ∧
        t.measure (branchAt z 2) = enteredAs r.third ∧
        t.segment z = { link := .online, misses := 0, lastLevel := r.level } ∧
        (∀ b, zoneOf b ≠ z → t.measure b = s.measure b ∧ t.branch b = u.branch b ∧ t.drip b = s.drip b) ∧
        (∀ y, y ≠ z → t.segment y = s.segment y ∧ t.zone y = u.zone y) ∧
        t.head = s.head ∧ t.map = s.map ∧ t.planPending = s.planPending ∧ t.planActive = s.planActive ∧
        t.leases = u.leases ∧ t.feeds = u.feeds ∧ t.activeFeed = s.activeFeed ∧ t.params = s.params) ∧
    (∀ x, s.scanner.exchange = some x →
      (x.module ≠ segmentModule z ∨ r.number ≠ s.scanner.number ∨ x.began + 4 ≤ s.clock + after) →
      exec (.segmentReport after z r) s = exec (.exchangeMiss after) s) ∧
    (s.scanner.exchange = none → exec (.segmentReport after z r) s = .next u)

/-- R19, R21, R22, R25, R27, R123, R125, R127, R131, R135: a head report that echoes the exchange in progress with the
head module before the answer window has closed enters its values saturated and ONLINE with no misses, moves the proof
counts and the low-pressure timers, and clears the mark of a FAILED feed whose count it raises to 3; then the switch, the
start-up and a both-open condition are judged, in that order; branches, leases and the plan are left alone. A switch in
OPENING whose target's count it has raised to 3 changes the active feed and goes on to CLOSING_OLD; one in CLOSING_OLD
ends when the old inlet reports CLOSED; the start-up ends when the active feed's count is raised to 3; a both-open
condition ends when the active feed is clear and proven, or by a failover to the other feed that is. Any other head report
is a miss, or is discarded with no exchange in progress (DEDUCED, notes/assumptions/15.md; the window in whole ms,
notes/assumptions/3.md). -/
def Obligations.AHeadReportIsEnteredAndJudged : Prop :=
  (∀ (s : State) (after : Nat) (r : HeadReport), s.running = true →
    let u := s.elapse after
    let range (v : Int) : Nat := (max 0 (min v 1000)).toNat
    let pressure (f : Feed) : Nat := range (if f = .a then r.pressureA else r.pressureB)
    let filled : State := { u with
      scanner := { s.scanner with exchange := none }
      head := { pressureA := range r.pressureA, pressureB := range r.pressureB, inletA := r.inletA, inletB := r.inletB,
                link := .online, misses := 0 } }
    let judged (f : Feed) : FeedRecord :=
      { u.feed f with
        proof := if s.params.proofPressure ≤ pressure f then min ((u.feed f).proof + 1) 3 else 0
        failed := (u.feed f).failed && !(decide (s.params.proofPressure ≤ pressure f) && decide ((u.feed f).proof = 2))
        lowTimer := if (u.feed f).failed = true ∨ s.params.failPressure ≤ pressure f then none
          else some ((u.feed f).lowTimer.getD (.start 0)) }
    (∀ x, s.scanner.exchange = some x → x.module = headModule → r.number = s.scanner.number →
      s.clock + after < x.began + 4 →
      ∃ t, exec (.headReport after r) s = .next t ∧
        t = resolveBothOpen (judgeStartup filled (judgeSwitch filled
          ((filled.setFeed .a (judged .a)).setFeed .b (judged .b)))) ∧
        t.scanner = filled.scanner ∧ t.head = filled.head ∧
        (∀ f, (t.feed f).proof = (judged f).proof ∧ (t.feed f).failed = (judged f).failed ∧
          (t.feed f).lowTimer = (judged f).lowTimer) ∧
        t.branches = u.branches ∧ t.measured = s.measured ∧ t.segments = s.segments ∧ t.leases = u.leases ∧
        t.planActive = s.planActive ∧ t.mode = s.mode ∧ t.params = s.params) ∧
    (∀ x, s.scanner.exchange = some x →
      (x.module ≠ headModule ∨ r.number ≠ s.scanner.number ∨ x.began + 4 ≤ s.clock + after) →
      exec (.headReport after r) s = exec (.exchangeMiss after) s) ∧
    (s.scanner.exchange = none → exec (.headReport after r) s = .next u)) ∧
  (∀ before s : State,
    let raised (f : Feed) : Prop := (before.feed f).proof < 3 ∧ (s.feed f).proof = 3
    let old := s.activeFeed
    let turned (f : Feed) : State := notifyAll .feedChanged
      { s with
        activeFeed := f
        timer := { s.timer with timing := .free, lockIn := 0, reference := none, interval := none, deadline := none,
                                further := [] } }
    let proven (f : Feed) : Prop := (s.feed f).failed = false ∧ (s.feed f).proof = 3
    (s.switch = none → judgeSwitch before s = s) ∧
    (∀ w, s.switch = some w →
      (w.phase = .opening → raised w.target → judgeSwitch before s =
        { (turned w.target).setFeed w.origin { s.feed w.origin with inlet := .closed } with
          switch := some { w with phase := .closingOld, window := .start s.params.switchWindow } }) ∧
      (w.phase = .opening → ¬ raised w.target → judgeSwitch before s = s) ∧
      (w.phase = .closingOld → s.inletFeedback w.origin = .closed → judgeSwitch before s = { s with switch := none }) ∧
      (w.phase = .closingOld → s.inletFeedback w.origin ≠ .closed → judgeSwitch before s = s)) ∧
    (s.startup ≠ none → raised old → judgeStartup before s = { s with startup := none }) ∧
    ((s.startup = none ∨ ¬ raised old) → judgeStartup before s = s) ∧
    (s.bothOpen = true → proven old → resolveBothOpen s =
      { s.setFeed old.other { s.feed old.other with inlet := .closed } with bothOpen := false }) ∧
    (s.bothOpen = true → (s.feed old).failed = true → proven old.other → s.params.failoverEnable = true →
      resolveBothOpen s =
        { report .feedFailover (.feed old) (some (s.pressure old))
            ((turned old.other).setFeed old { s.feed old with inlet := .closed }) with bothOpen := false }) ∧
    ((s.bothOpen = false ∨
        (¬ proven old ∧ ¬ ((s.feed old).failed = true ∧ proven old.other ∧ s.params.failoverEnable = true))) →
      resolveBothOpen s = s))

/-- R43, R44, R157: what step 2 of a good segment report does to one branch of the segment. -/
def Obligations.ReportsProveAndClose : Prop :=
  ∀ (s : State) (b : BranchId),
    let x := s.branch b
    let m := s.measure b
    (x.state = .priming → m.returnFlow < s.params.proofFlow → judgeBranch s b = s.setBranch b { x with proof := 0 }) ∧
    (x.state = .priming → s.params.proofFlow ≤ m.returnFlow → x.proof < 2 →
      judgeBranch s b = s.setBranch b { x with proof := x.proof + 1 }) ∧
    (x.state = .priming → s.params.proofFlow ≤ m.returnFlow → 2 ≤ x.proof →
      judgeBranch s b = notifyAll .branchChanged (s.setBranch b
        { state := .flowing, attempts := 0, timer := none, proof := 0,
          ttl := if (s.entry b).ttlPolicy = .none then none else some (.start (s.entry b).ttlTime), pin := none, target := none,
          supply := (s.entry b).primePosition, ret := .opened, subPhase := none, reason := none,
          isolationMark := x.isolationMark, hot := false })) ∧
    (x.state = .isolating → x.subPhase = some .supplyClosing → m.supplyFeedback ≤ 10 →
      judgeBranch s b = s.setBranch b { x with ret := .closed, subPhase := some .returnClosing }) ∧
    (x.state = .isolating → x.subPhase = some .supplyClosing → 10 < m.supplyFeedback → judgeBranch s b = s) ∧
    (∀ why, x.state = .isolating → x.subPhase = some .returnClosing → x.reason = some why →
      m.returnFeedback = .closed → m.supplyFlow ≤ s.params.residualFlow →
      judgeBranch s b = report .branchIsolated (.branch b) (some why.code) (notifyAll .branchChanged (s.setBranch b
        { x with state := .isolated, timer := none, subPhase := none, supply := 0, ret := .closed }))) ∧
    (x.state = .isolating → x.subPhase = some .returnClosing →
      (m.returnFeedback ≠ .closed ∨ s.params.residualFlow < m.supplyFlow) → judgeBranch s b = s) ∧
    (x.state ≠ .priming → x.state ≠ .isolating → judgeBranch s b = s)

/-! ## Drip detection -/

/-- R138, R139: the accumulator of an exposed branch after a report, and its level, with BRANCH_SUSPECT where the level
rises; a branch that is not exposed is passed over. -/
def Obligations.AccumulatorsRiseAndDecay : Prop :=
  ∀ (s : State) (b : BranchId),
    let p := s.params
    let i : Int := (s.measure b).supplyFlow - (s.measure b).returnFlow
    let a := (s.drip b).amount
    let t := dripUpdate s b
    ((s.branch b).state ∉ [BranchState.priming, .flowing, .setback, .pinned] → t = s) ∧
    ((s.branch b).state ∈ [BranchState.priming, .flowing, .setback, .pinned] →
      (t.drip b).lastImbalance = i ∧
      ((p.imbalanceTol : Int) < i →
        ((t.drip b).amount : Int) = min ((a : Int) + (i - p.imbalanceTol)) (4 * p.dripThreshold)) ∧
      (i ≤ (p.imbalanceTol : Int) → (t.drip b).amount = min (a - p.dripDecay) (4 * p.dripThreshold)) ∧
      (let new := (t.drip b).amount
       (2 * p.dripThreshold ≤ new → (t.drip b).level = .hard) ∧
       (p.dripThreshold ≤ new → new < 2 * p.dripThreshold → (t.drip b).level = .suspect) ∧
       (new < p.dripThreshold → p.dripThreshold ≤ 2 * new →
         (t.drip b).level = if (s.drip b).level = .none then .none else .suspect) ∧
       (2 * new < p.dripThreshold → (t.drip b).level = .none)) ∧
      t = (if (s.drip b).level.rank < (t.drip b).level.rank then
        report .branchSuspect (.branch b) (some i) (s.setDrip b (t.drip b)) else s.setDrip b (t.drip b)))

/-- R141: the table of counts and steps of a zone on a report, with ZONE_DAMP and ZONE_WET; it follows the three accumulator
updates and comes before the decision. -/
def Obligations.ZonesAreDebounced : Prop :=
  ∀ (s : State) (z : SegId) (level : ZoneLevel),
    let x := s.zone z
    let t := zoneIntake z level s
    let becomes (st : ZoneLevel) (rise dry : Nat) : State := s.setZone z { x with state := st, rise := rise, dry := dry }
    (x.state = .dry → level = .dry → x.rise < 3 → t = becomes .dry 0 x.dry) ∧
    (x.state = .dry → level ≠ .dry → x.rise < 2 → t = becomes .dry (x.rise + 1) x.dry) ∧
    (x.state = .dry → level ≠ .dry → x.rise = 2 → t = report .zoneDamp (.zone z) none (becomes .damp 0 0)) ∧
    (x.state = .damp → level = .dry → x.dry < 19 → t = becomes .damp 0 (x.dry + 1)) ∧
    (x.state = .damp → level = .dry → x.dry = 19 → t = becomes .dry 0 0) ∧
    (x.state = .damp → level = .damp → t = becomes .damp 0 0) ∧
    (x.state = .damp → level = .wet → x.rise < 2 → t = becomes .damp (x.rise + 1) 0) ∧
    (x.state = .damp → level = .wet → x.rise = 2 → t = report .zoneWet (.zone z) none (becomes .wet 0 0)) ∧
    (x.state = .wet → level = .dry → t = becomes .wet x.rise (min (x.dry + 1) 20)) ∧
    (x.state = .wet → level ≠ .dry → t = becomes .wet x.rise 0) ∧
    dripStep z level s = decision z (zoneIntake z level
      (dripUpdate (dripUpdate (dripUpdate s (branchAt z 0)) (branchAt z 1)) (branchAt z 2)))

/-- R144 to R146: whom the decision isolates and why, by the zone's state; and when it starts, leaves and stops the confirm
timer; and what the end of that timer does with suspects, without them by the policy, and with nothing exposed. -/
def Obligations.TheDecisionIsolatesSuspects : Prop :=
  ∀ (s : State) (z : SegId),
    let exposed := (zoneBranches z).filter fun b => (s.branch b).state.isExposed
    let suspects := exposed.filter fun b => decide ((s.drip b).level ≠ .none)
    let hard := exposed.filter fun b => decide ((s.drip b).level = .hard)
    let without : State := s.setZone z { s.zone z with confirm := none }
    ((s.zone z).state = .dry → decision z s = isolateAll .hardImbalance hard s) ∧
    ((s.zone z).state = .damp → decision z s = isolateAll .confirmedImbalance suspects s) ∧
    ((s.zone z).state = .wet → suspects ≠ [] → decision z s = isolateAll .confirmedImbalance suspects without) ∧
    ((s.zone z).state = .wet → suspects = [] → exposed = [] → decision z s = without) ∧
    ((s.zone z).state = .wet → suspects = [] → exposed ≠ [] → (s.zone z).confirm = none →
      decision z s = s.setZone z
        { s.zone z with confirm := some { remaining := .start s.params.confirmWindow, running := true } }) ∧
    ((s.zone z).state = .wet → suspects = [] → exposed ≠ [] → (s.zone z).confirm ≠ none → decision z s = s) ∧
    (∀ after c, s.running = true → ((s.elapse after).zone z).confirm = some c → c.remaining.steps = 0 → c.running = true →
      (s.zone z).state = .wet →
      let u := (s.elapse after).setZone z { (s.elapse after).zone z with confirm := none }
      (suspects ≠ [] → exec (.confirmExpiry after z) s = .next (isolateAll .confirmedImbalance suspects u)) ∧
      (exposed = [] → exec (.confirmExpiry after z) s = .next u) ∧
      (suspects = [] → exposed ≠ [] → (s.zone z).policy = .auto → exec (.confirmExpiry after z) s =
        .next (report .zoneIsolated (.zone z) (some exposed.length) (isolateAll .zoneWet exposed u))) ∧
      (suspects = [] → exposed ≠ [] → (s.zone z).policy = .report → exec (.confirmExpiry after z) s =
        .next (report .zoneWet (.zone z) none u))) ∧
    (∀ (why : IsolationReason) (bs : List BranchId) (x : State),
      isolateAll why bs x = bs.foldl (fun y b => isolate why b y) x)

/-- R142, R143: CLEAR_ZONE by the zone's state and the segment's current dry reports; SET_ZONE_POLICY writes the policy. -/
def Obligations.ZonesAreClearedByThePanel : Prop :=
  ∀ (s : State) (z : SegId), Ready s .sp →
    let ask := exec (.clearZone .sp [BitVec.ofNat 8 z.val]) s
    let plain (x : State) (st : Status) : Host.Outcome State Fault Refusal :=
      .next (x.answering .sp 0x34 { status := st, body := [] })
    ((s.zone z).state = .dry → ask = plain s .ok) ∧
    ((s.zone z).state = .damp → ask = plain s .wrongState) ∧
    ((s.zone z).state = .wet → (s.segment z).link = .online → 3 ≤ (s.zone z).dry →
      ask = plain (s.setZone z { s.zone z with state := .dry, rise := 0, dry := 0, confirm := none }) .ok) ∧
    ((s.zone z).state = .wet → ((s.segment z).link ≠ .online ∨ (s.zone z).dry < 3) → ask = plain s .zoneWet) ∧
    (∀ policy : ZonePolicy, exec (.setZonePolicy .sp [BitVec.ofNat 8 z.val, BitVec.ofNat 8 policy.code]) s =
      .next ((s.setZone z { s.zone z with policy := policy }).answering .sp 0x35 { status := .ok, body := [] })) ∧
    (∀ code : Byte, 2 ≤ code.toNat → exec (.setZonePolicy .sp [BitVec.ofNat 8 z.val, code]) s =
      .next (s.answering .sp 0x35 { status := .badValue, body := [] }))

/-! ## Isolation and manifold modes -/

/-- R155, R156, R160: what an isolation order does by the state of its branch, and that ISOLATE_BRANCH is a PANEL order and
ISOLATE_ZONE one for each of the zone's branches in ascending index, with the confirm timer made absent. -/
def Obligations.IsolationOrdersTakeEffect : Prop :=
  ∀ (s : State) (b : BranchId) (why : IsolationReason),
    let order := isolate why b s
    let closing : Branch :=
      { state := .isolating, attempts := 0, timer := some (.start s.params.isolateWindow), proof := 0, ttl := none, pin := none,
        target := none, supply := 0, ret := .opened, subPhase := some .supplyClosing, reason := some why,
        isolationMark := true, hot := false }
    ((s.branch b).state ∉ [BranchState.isolating, .isolated, .isolateFault] →
      order = notifyAll .branchChanged (handMark b true (s.setBranch b closing))) ∧
    ((s.branch b).state = .isolateFault → why = .panel → order = notifyAll .branchChanged (s.setBranch b closing)) ∧
    ((s.branch b).state = .isolateFault → why ≠ .panel → order = s) ∧
    ((s.branch b).state = .isolating ∨ (s.branch b).state = .isolated → order = s) ∧
    (Ready s .sp → exec (.isolateBranch .sp [BitVec.ofNat 8 b.val]) s =
      .next ((isolate .panel b s).answering .sp 0x30 { status := .ok, body := [] })) ∧
    (∀ z : SegId, Ready s .sp → exec (.isolateZone .sp [BitVec.ofNat 8 z.val]) s =
      .next ((isolate .panel (branchAt z 2) (isolate .panel (branchAt z 1) (isolate .panel (branchAt z 0)
        (s.setZone z { s.zone z with confirm := none })))).answering .sp 0x31 { status := .ok, body := [] }))

/-- R15, R60, R161, R162: RESTORE_BRANCH from the panel and from the rack manager, its refusals in their order, and what a
restore does; RESTORE_ZONE does the same to each branch of a zone that is not WET and that is ISOLATED or ISOLATE_FAULT, in
ascending index, each with its own mark write and BRANCH_CHANGED, and passes the others over. -/
def Obligations.RestoringRestsTheBranch : Prop :=
  ∀ (s : State) (b : BranchId) (tag : Byte),
    let atRest (c : BranchId) : Branch :=
      { state := if (s.entry c).slotTag = none then .unmapped else .vacant, attempts := 0, timer := none, proof := 0,
        ttl := none, pin := none, target := none, supply := 0, ret := .closed, subPhase := none, reason := none,
        isolationMark := false, hot := false }
    let atDefaults : PlanEntry := { demand := 0, floor := 100, cap := 2000, weight := 8 }
    let restored (x : State) (c : BranchId) : State := notifyAll .branchChanged
      (((handMark c false (x.setDrip c { x.drip c with amount := 0, level := .none })).withPlan c atDefaults).setBranch c
        (atRest c))
    let rested : State := restored s b
    let taken (x : State) (c : BranchId) : State :=
      if (s.branch c).state = .isolated ∨ (s.branch c).state = .isolateFault then restored x c else x
    let fromPanel := exec (.restoreBranch .sp [BitVec.ofNat 8 b.val]) s
    let fromRack := exec (.restoreBranch .rm [tag]) s
    let answer (x : State) (p : Port) (st : Status) : Host.Outcome State Fault Refusal :=
      .next (x.answering p 0x32 { status := st, body := [] })
    let isolated := (s.branch b).state = .isolated ∨ (s.branch b).state = .isolateFault
    (Ready s .sp → ¬ isolated → fromPanel = answer s .sp .wrongState) ∧
    (Ready s .sp → isolated → (s.zone (zoneOf b)).state = .wet → fromPanel = answer s .sp .zoneWet) ∧
    (Ready s .sp → isolated → (s.zone (zoneOf b)).state ≠ .wet → fromPanel = answer rested .sp .ok) ∧
    (Ready s .rm → Carries s b tag.toNat → (s.entry b).authority = .safetyOnly →
      fromRack = answer s .rm .notPermitted) ∧
    (Ready s .rm → Carries s b tag.toNat → (s.entry b).authority = .safetyOrRack → ¬ isolated →
      fromRack = answer s .rm .wrongState) ∧
    (Ready s .rm → Carries s b tag.toNat → (s.entry b).authority = .safetyOrRack → isolated →
      (s.zone (zoneOf b)).state = .wet → fromRack = answer s .rm .zoneWet) ∧
    (Ready s .rm → Carries s b tag.toNat → (s.entry b).authority = .safetyOrRack → isolated →
      (s.zone (zoneOf b)).state ≠ .wet → fromRack = answer rested .rm .ok) ∧
    (∀ z : SegId, Ready s .sp → (s.zone z).state = .wet → exec (.restoreZone .sp [BitVec.ofNat 8 z.val]) s =
      .next (s.answering .sp 0x33 { status := .zoneWet, body := [] })) ∧
    (∀ z : SegId, Ready s .sp → (s.zone z).state ≠ .wet →
      ∃ t : State, exec (.restoreZone .sp [BitVec.ofNat 8 z.val]) s =
        .next (t.answering .sp 0x33 { status := .ok, body := [] }) ∧
        t = taken (taken (taken s (branchAt z 0)) (branchAt z 1)) (branchAt z 2) ∧
        (∀ c, zoneOf c = z → ((s.branch c).state = .isolated ∨ (s.branch c).state = .isolateFault) →
          t.branch c = atRest c ∧ (t.drip c).amount = 0 ∧ (t.drip c).level = .none ∧
          (t.drip c).lastImbalance = (s.drip c).lastImbalance ∧ t.pendingPlan c = atDefaults ∧
          t.activePlan c = atDefaults ∧ { branch := c, value := false } ∈ t.store.queue) ∧
        (∀ c, (zoneOf c ≠ z ∨ (s.branch c).state.isIsolation = false ∨ (s.branch c).state = .isolating) →
          t.branch c = s.branch c ∧ t.drip c = s.drip c ∧ t.pendingPlan c = s.pendingPlan c ∧
          t.activePlan c = s.activePlan c))

/-- R158, R163, R167: the end of an isolation window: ISOLATE_FAULT with its detail, then the escalation to the siblings in
ascending index, then the fault-hold cause; and what a cause does with fault hold absent, present, and in SAFE. -/
def Obligations.AnIsolationFaultEscalates : Prop :=
  ∀ (s : State) (after : Nat) (b : BranchId), s.running = true →
    let u := s.elapse after
    let x := u.branch b
    (∀ k, x.state = .isolating → x.timer = some k → k.steps = 0 →
      exec (.isolateWindowExpiry after b) s =
        .next (faultCause (.isolateFault b) ((siblings b).foldl (fun t c => isolate .escalation c t)
          (report .isolateFault (.branch b) (some (if x.subPhase = some .returnClosing then 2 else 1))
            (notifyAll .branchChanged (u.setBranch b
              { x with state := .isolateFault, timer := none, subPhase := none, supply := 0, ret := .closed })))))) ∧
    (∀ cause : FaultCause,
      (s.faultHold = none → faultCause cause s = notifyAll .modeChanged
        { s with faultHold := some { first := cause, began := s.uptime, count := 1 } }) ∧
      (∀ h, s.faultHold = some h → s.mode = .safe →
        faultCause cause s = { s with faultHold := some { h with count := min (h.count + 1) 255 } }) ∧
      (∀ h, s.faultHold = some h → s.mode ≠ .safe →
        faultCause cause s = report .safeEntered .nothing (some (min (h.count + 1) 255 : Nat))
          (notifyAll .modeChanged
            { s with faultHold := some { h with count := min (h.count + 1) 255 }, park := none, mode := .safe })))

/-- R166: HOLD from RUN and RELEASE_HOLD from HOLD change the mode with MODE_CHANGED; else MODE. R164, R167: CLEAR_FAULT and
CLEAR_SAFE by their checks in order. -/
def Obligations.HoldAndFaultHoldAreCleared : Prop :=
  ∀ s : State, Ready s .sp →
    let stands := (∃ b, (s.branch b).state = .isolateFault) ∨ ((s.feed .a).failed = true ∧ (s.feed .b).failed = true)
    let answer (x : State) (code : Byte) (st : Status) : Host.Outcome State Fault Refusal :=
      .next (x.answering .sp code { status := st, body := [] })
    let mode (m : Mode) (x : State) : State := notifyAll .modeChanged { x with mode := m }
    (exec (.hold .sp []) s = if s.mode = .run then answer (mode .hold s) 0x36 .ok else answer s 0x36 .mode) ∧
    (exec (.releaseHold .sp []) s = if s.mode = .hold then answer (mode .run s) 0x37 .ok else answer s 0x37 .mode) ∧
    (s.mode = .safe → exec (.clearFault .sp []) s = answer s 0x38 .mode) ∧
    (s.mode ≠ .safe → s.faultHold = none → exec (.clearFault .sp []) s = answer s 0x38 .ok) ∧
    (s.mode ≠ .safe → s.faultHold ≠ none → stands → exec (.clearFault .sp []) s = answer s 0x38 .wrongState) ∧
    (s.mode ≠ .safe → s.faultHold ≠ none → ¬ stands →
      exec (.clearFault .sp []) s = answer (notifyAll .modeChanged { s with faultHold := none }) 0x38 .ok) ∧
    (s.mode ≠ .safe → exec (.clearSafe .sp []) s = answer s 0x39 .mode) ∧
    (s.mode = .safe → stands → exec (.clearSafe .sp []) s = answer s 0x39 .wrongState) ∧
    (s.mode = .safe → ¬ stands → exec (.clearSafe .sp []) s = answer (mode .run { s with faultHold := none }) 0x39 .ok)

/-- R58, R168, R169: PARK from RUN or HOLD releases every admitted branch in ascending index, each with BRANCH_CHANGED,
leaves the others, makes the mode PARKING with MODE_CHANGED, and starts the park; UNPARK returns to RUN; a report's park
test sets or clears its segment's confirmation in PARKING, and makes the mode PARKED where every ONLINE segment is then
confirmed; the park window's end makes the mode PARKED with PARK_INCOMPLETE and its detail. -/
def Obligations.ParkingRestsTheRack : Prop :=
  ∀ s : State,
    let atRest (mark : Bool) : Branch :=
      { state := .vacant, attempts := 0, timer := none, proof := 0, ttl := none, pin := none, target := none, supply := 0,
        ret := .closed, subPhase := none, reason := none, isolationMark := mark, hot := false }
    let released (x : State) (b : BranchId) : State :=
      if (s.branch b).state ∈ [BranchState.priming, .backoff, .noflow, .flowing, .setback, .pinned] then
        notifyAll .branchChanged
          ((x.withPlan b { demand := 0, floor := 100, cap := 2000, weight := 8 }).setBranch b
            (atRest (s.branch b).isolationMark))
      else x
    (Ready s .rm → (s.mode = .run ∨ s.mode = .hold) →
      ∃ t : State, exec (.park .rm []) s = .next (t.answering .rm 0x3A { status := .ok, body := [] }) ∧ t.mode = .parking ∧
        t = { notifyAll .modeChanged { allBranches.foldl released s with mode := .parking } with
              park := some { window := .start s.params.parkWindow, confirmed := 0 } } ∧
        t.park = some { window := .start s.params.parkWindow, confirmed := 0 } ∧
        (∀ b, (s.branch b).state.isAdmitted = true →
          t.branch b = atRest (s.branch b).isolationMark ∧
          t.pendingPlan b = PlanEntry.default ∧ t.activePlan b = PlanEntry.default) ∧
        (∀ b, (s.branch b).state.isAdmitted = false →
          t.branch b = s.branch b ∧ t.pendingPlan b = s.pendingPlan b ∧ t.activePlan b = s.activePlan b) ∧
        t.feeds = s.feeds ∧ t.activeFeed = s.activeFeed ∧ t.switch = s.switch ∧ t.leases = s.leases ∧
        t.faultHold = s.faultHold ∧ t.incidents = s.incidents) ∧
    (Ready s .rm → s.mode ≠ .run → s.mode ≠ .hold →
      exec (.park .rm []) s = .next (s.answering .rm 0x3A { status := .mode, body := [] })) ∧
    (Ready s .rm → (s.mode = .parking ∨ s.mode = .parked) →
      exec (.unpark .rm []) s = .next ((notifyAll .modeChanged { s with park := none, mode := .run }).answering .rm 0x3B
        { status := .ok, body := [] })) ∧
    (Ready s .rm → s.mode ≠ .parking → s.mode ≠ .parked →
      exec (.unpark .rm []) s = .next (s.answering .rm 0x3B { status := .mode, body := [] })) ∧
    (∀ (z : SegId) (k : Park), s.mode = .parking → s.park = some k →
      let passes := (zoneBranches z).all fun c => (s.branch c).state.isIsolation ||
        decide ((s.measure c).supplyFeedback ≤ 10 ∧ (s.measure c).returnFeedback = .closed)
      let bits : BitVec 16 :=
        if passes then k.confirmed ||| BitVec.twoPow 16 z.val else k.confirmed &&& ~~~(BitVec.twoPow 16 z.val)
      let complete := ∀ y, (s.segment y).link = .online → bits.getLsbD y.val = true
      (complete → parkTest z s = notifyAll .modeChanged { s with park := none, mode := .parked }) ∧
      (¬ complete → parkTest z s = { s with park := some { k with confirmed := bits } })) ∧
    (∀ z : SegId, (s.mode ≠ .parking ∨ s.park = none) → parkTest z s = s) ∧
    (∀ after k, s.running = true → s.mode = .parking → (s.elapse after).park = some k → k.window.steps = 0 →
      let online := allSegments.filter fun z => decide ((s.segment z).link = .online)
      let missing := online.filter fun z => !k.confirmed.getLsbD z.val
      exec (.parkWindowExpiry after) s =
        .next (report .parkIncomplete .nothing (some (if online = [] then 16 else missing.length : Nat))
          (notifyAll .modeChanged { s.elapse after with park := none, mode := .parked })))

/-! ## Incidents -/

/-- R172, R174, R175: a report of a listed kind and subject merges into its record; another is appended with INCIDENT and
the next sequence number that no record carries, or counted as overflow where the list is full. ACK_INCIDENT removes the
record of its number, clears the overflow count of an emptied list, is answered NOT_FOUND for another number, and is
refused with NOT_PERMITTED from UA and UB. -/
def Obligations.ReportsAreListedAndAcknowledged : Prop :=
  (∀ (s : State) (kind : Kind) (subject : Subject) (detail : Option Int),
    let l := s.incidents
    let d := detail.map fun x => max (-32768) (min x 32767)
    let t := report kind subject detail s
    let known := ∃ r ∈ l.records, r.kind = kind ∧ r.subject = subject
    (known → t = { s with incidents := { l with records := l.records.map fun r =>
      if r.kind = kind ∧ r.subject = subject then
        { r with count := min (r.count + 1) 65535, lastTime := s.uptime, detail := d }
      else r } }) ∧
    (¬ known → l.records.length < 32 → l.next < 65536 → ∃ k ≤ 32, let n := (l.next + k) % 65536
      (∀ r ∈ l.records, r.sequence ≠ n) ∧ (∀ j < k, ∃ r ∈ l.records, r.sequence = (l.next + j) % 65536) ∧
      t = notifyAll .incident { s with incidents := { l with
        records := l.records ++ [{ sequence := n, kind := kind, subject := subject, firstTime := s.uptime,
                                   lastTime := s.uptime, count := 1, detail := d }]
        next := (n + 1) % 65536 } }) ∧
    (¬ known → 32 ≤ l.records.length → t = { s with incidents := { l with overflow := min (l.overflow + 1) 255 } })) ∧
  (∀ (s : State) (p : Port) (n : Nat), Ready s p → (p = .rm ∨ p = .sp) → n < 65536 →
    let l := s.incidents
    let kept := l.records.filter fun r => decide (r.sequence ≠ n)
    ((∃ r ∈ l.records, r.sequence = n) → exec (.ackIncident p (byte2 n)) s =
      .next (State.answering
        { s with incidents := { l with records := kept, overflow := if kept = [] then 0 else l.overflow } } p 0x3C
        { status := .ok, body := [] })) ∧
    ((∀ r ∈ l.records, r.sequence ≠ n) → exec (.ackIncident p (byte2 n)) s =
      .next (s.answering p 0x3C { status := .notFound, body := [] }))) ∧
  (∀ (s : State) (p : Port) (n : Nat), Ready s p → (p = .ua ∨ p = .ub) → exec (.ackIncident p (byte2 n)) s =
    .next (s.answering p 0x3C { status := .notPermitted, body := [] }))

/-! ## The configuration store -/

/-- R190, R193: SAVE_CONFIG starts a save of the image as it stands, or finds one running BUSY; the image has 622 bytes
and is a good one; an acknowledged page is written to its place and the save goes on, and ends with the last; one not
acknowledged is tried again, and at the third failure ends the save with STORE_FAULT, detail 1, and leaves an image whose
CRC does not match it (notes/assumptions/22.md). A page waits while a mark write is in progress. That a page not
acknowledged leaves its bytes as they were is PRESUMED (notes/assumptions/13.md). -/
def Obligations.SavesWriteTheirPages : Prop :=
  ∀ s : State,
    let saving (x : State) (v : Option Save) : State := { x with store := { x.store with save := v } }
    (Ready s .rm → s.store.save = none → exec (.saveConfig .rm []) s =
      .next ((saving s (some { image := imageOf s, page := 0, failures := 0 })).answering .rm 0x40
        { status := .ok, body := [] })) ∧
    (Ready s .rm → s.store.save ≠ none →
      exec (.saveConfig .rm []) s = .next (s.answering .rm 0x40 { status := .busy, body := [] })) ∧
    ((imageOf s).length = 622 ∧ goodImage (imageOf s) = true) ∧
    (∀ after, s.running = true →
      let u := s.elapse after
      let written (v : Save) : List Host.Cell :=
        writeBytes s.eeprom (32 * v.page) ((v.image.drop (32 * v.page)).take 32)
      (∀ v, s.store.save = some v → s.store.write = none →
        (v.page < 19 → exec (.savePageWriteEnd after true) s =
          .next { saving u (some { v with page := v.page + 1, failures := 0 }) with eeprom := written v }) ∧
        (19 ≤ v.page → exec (.savePageWriteEnd after true) s =
          .next { saving u none with eeprom := written v, imageTorn := false }) ∧
        (v.failures < 2 → exec (.savePageWriteEnd after false) s =
          .next (saving u (some { v with failures := v.failures + 1 }))) ∧
        (2 ≤ v.failures → exec (.savePageWriteEnd after false) s =
          .next (report .storeFault .nothing (some 1) { saving u none with imageTorn := true }))) ∧
      (∀ acknowledged, (s.store.save = none ∨ s.store.write ≠ none) →
        exec (.savePageWriteEnd after acknowledged) s = .next u))

/-- R190, R194: the head of the queue is written when no save runs and no retry waits; a success writes the two bytes of the
branch's mark entry and removes the entry, unless its value was replaced during the write, when it stays at the head; a
third failure is reported as STORE_FAULT, detail 2, and starts the retry wait of 1 s, at whose end the head is written
again, after a save that runs. A mark write handed on replaces its branch's entry in place, also while that entry is being
written, or joins the end. That the third failure is the last is DEDUCED (notes/assumptions/12.md), and that a failed write
leaves its bytes PRESUMED (notes/assumptions/13.md). -/
def Obligations.MarksAreWrittenFromTheHead : Prop :=
  ∀ (s : State) (after : Nat), s.running = true →
    let u := s.elapse after
    let writing (x : State) (w : Option MarkWrite) : State := { x with store := { x.store with write := w } }
    let fresh (e : MarkEntry) : MarkWrite := { branch := e.branch, value := e.value, failures := 0, replaced := false }
    (∀ e rest, s.store.save = none → s.store.retry = none → s.store.write = none → s.store.queue = e :: rest →
      exec (.markWriteStart after) s = .next (writing u (some (fresh e)))) ∧
    (s.store.save ≠ none ∨ s.store.retry ≠ none ∨ s.store.write ≠ none ∨ s.store.queue = [] →
      exec (.markWriteStart after) s = .next u) ∧
    (∀ w, s.store.write = some w →
      (∀ e rest, s.store.queue = e :: rest → exec (.markWriteEnd after true) s =
        .next { u with
          store := { u.store with write := none, queue := if w.replaced = true then e :: rest else rest }
          eeprom := writeBytes s.eeprom (4096 + 2 * w.branch.val) (if w.value then [0x01, 0xFE] else [0x00, 0xFF]) }) ∧
      (w.failures < 2 → exec (.markWriteEnd after false) s =
        .next (writing u (some { w with failures := w.failures + 1 }))) ∧
      (2 ≤ w.failures → exec (.markWriteEnd after false) s =
        .next (report .storeFault .nothing (some 2)
          { u with store := { u.store with write := none, retry := some (.start 10) } }))) ∧
    (∀ e rest k, u.store.retry = some k → k.steps = 0 → s.store.save = none → s.store.write = none →
      s.store.queue = e :: rest →
      exec (.markRetryExpiry after) s =
        .next { u with store := { u.store with retry := none, write := some (fresh e) } }) ∧
    (∀ k, u.store.retry = some k → k.steps = 0 → s.store.save ≠ none →
      exec (.markRetryExpiry after) s = .next { u with store := { u.store with retry := none } }) ∧
    (∀ b value,
      handMark b value s = { s with store := { s.store with
        queue := (handMark b value s).store.queue
        write := s.store.write.map fun w => if w.branch = b then { w with replaced := true } else w } } ∧
      ((∀ e ∈ s.store.queue, e.branch ≠ b) →
        (handMark b value s).store.queue = s.store.queue ++ [{ branch := b, value := value }]) ∧
      ((∃ e ∈ s.store.queue, e.branch = b) →
        (handMark b value s).store.queue =
          s.store.queue.map fun e => if e.branch = b then { branch := b, value := value } else e))

/-- R3, R190, R191: a saved image, loaded, gives back every parameter, every map entry and every zone policy that stood when
it was computed. -/
def Obligations.ASavedImageLoadsBack : Prop :=
  ∀ s u : State, ParamsInRange s → TagsDistinct s → EntriesFit s →
    (loadImage (imageOf s) u).params = s.params ∧ (loadImage (imageOf s) u).map = s.map ∧
      ∀ z, ((loadImage (imageOf s) u).zone z).policy = (s.zone z).policy

/-! ## Resets and start-up -/

/-- R33, R62, R83, R104, R136, R154, R171, R181, R193 to R195: the sources of a warm reset, what taking it abandons, and
what its completion restarts and keeps. What falls on the completion and not on the taking is the model's choice
(notes/assumptions/16.md); that a page write or a mark write it abandons leaves the EEPROM's bytes as they were is
PRESUMED (notes/assumptions/13.md); that a save it aborts leaves a bad image is held as notes/assumptions/22.md says; that
a RESTART_RESET with no RESTART answered before it does nothing is the model's choice (notes/assumptions/5.md), and the
fields `restartDue` and `saveAborted` are the model's (notes/assumptions/20.md); the first exchange number is DEDUCED
(notes/assumptions/7.md). -/
def Obligations.AWarmResetRestartsThePart : Prop :=
  ∀ (s : State) (after : Nat),
    let u := s.elapse after
    let low (x : State) (v : Bool) : State := { x with resetLow := v }
    let taken := takeReset s
    let done := completeReset s
    (Ready s .rm → exec (.restart .rm []) s =
      .next (State.answering { s with restartDue := true } .rm 0x41 { status := .ok, body := [] })) ∧
    (s.running = true → s.restartDue = true → exec (.restartReset after) s = .next (completeReset (takeReset u))) ∧
    (s.running = true → s.restartDue = false → exec (.restartReset after) s = .next u) ∧
    (s.resetLow = false → exec (.resetNAssert after) s =
      .next (if s.loading then low u true else takeReset (low u true))) ∧
    (s.resetLow = true → exec (.resetNRelease after) s =
      .next (if s.loading then low u false else completeReset (low u false))) ∧
    (s.resetLow = true → exec (.resetNAssert after) s = .next u) ∧
    (s.resetLow = false → exec (.resetNRelease after) s = .next u) ∧
    ((∀ p, taken.port p = { s.port p with rx := .idle, answer := none }) ∧
      taken = { s with
        ports := taken.ports
        scanner := { s.scanner with exchange := none }
        store := { save := none, queue := s.store.queue, write := none, retry := none }
        saveAborted := s.saveAborted || s.store.save.isSome
        imageTorn := s.imageTorn || s.store.save.isSome
        restartDue := false }) ∧
    (done.map = s.map ∧ done.params = s.params ∧ done.planPending = s.planPending ∧ done.planActive = s.planActive ∧
      done.leases = s.leases ∧ done.handover = s.handover ∧ done.activeFeed = s.activeFeed ∧
      done.feedLock = s.feedLock ∧ done.bothOpen = s.bothOpen ∧ done.drips = s.drips ∧ done.mode = s.mode ∧
      done.faultHold = s.faultHold ∧ done.eeprom = s.eeprom ∧ done.imageTorn = s.imageTorn ∧ done.store = s.store ∧ done.clock = s.clock) ∧
    (∀ b, done.branch b =
      match (s.branch b).state with
      | .priming => { s.branch b with timer := some (.start s.params.primeWindow) }
      | .backoff => { s.branch b with timer := some (.start (10 * min (2 ^ (s.branch b).attempts) 64)) }
      | .flowing =>
        { s.branch b with ttl := if (s.entry b).ttlPolicy = .none then none else some (.start (s.entry b).ttlTime) }
      | .isolating =>
        { s.branch b with
          subPhase := some .supplyClosing, supply := 0, ret := .opened
          timer := some (.start s.params.isolateWindow) }
      | _ => s.branch b) ∧
    (done.freeze = none ∧ done.switch = none ∧ done.startup = s.startup.map (fun _ => .start s.params.switchWindow) ∧
      done.timer = CycleTimer.restarted s.clock ∧ done.summary = CycleSummary.cleared s.activeFeed) ∧
    (∀ f, done.feed f =
      { inlet := if ∃ w, s.switch = some w ∧ w.phase = .opening ∧ w.target = f then .closed else (s.feed f).inlet,
        failed := false, lowTimer := none, proof := 0 }) ∧
    (∀ z, done.zone z = { s.zone z with
      confirm := (s.zone z).confirm.map fun _ => { remaining := .start s.params.confirmWindow, running := true } }) ∧
    done.park = s.park.map (fun _ => { window := .start s.params.parkWindow, confirmed := 0 }) ∧
    ((∀ b, done.measure b = Measurement.cleared) ∧ (∀ z, done.segment z = SegmentRecord.cleared) ∧
      done.head = HeadRecord.cleared ∧
      done.scanner =
        { number := 1,
          exchange := some { module := 0, command := commandFor done 0, began := s.clock },
          next := 1,
          roundStart := s.clock,
          roundInterval := s.params.scanInterval }) ∧
    (s.saveAborted = false →
      (∀ p, done.port p = { s.port p with flags := 0x200#10 }) ∧ done.incidents = s.incidents) ∧
    (s.saveAborted = true → done.saveAborted = false ∧
      done.incidents = (report .saveAborted .nothing none s).incidents ∧
      ∀ p, done.port p = { s.port p with flags := 0x200#10 } ∨ done.port p = { s.port p with flags := 0x201#10 })

/-- R16, R61, R135, R181, R191 to R193: POWER_ON puts every piece of state at its power-on value under the EEPROM's bytes;
the end of the store load judges the image and the marks, reports STORE_INVALID, the MAP_DUPLICATEs and STORE_FAULT in
that order, sets the start states, queues the mark writes of the STORED branches in ascending index, starts the feeds, the
first round and the Cycle Timer, and sets RESTARTED. An entry that is not flagged valid, holds a tag above 127 or a choice
code outside its list, or repeats the tag of an earlier valid entry is loaded as not valid with the defaults. The division
between the two commands, with the queue and the counter of draws that POWER_ON keeps, is the model's choice
(notes/assumptions/18.md), and so are how an image left by an unfinished save is told (notes/assumptions/22.md), that
POWER_ON keeps the level of RESET_N (notes/assumptions/16.md), and the values that what the load sets holds before it
(notes/assumptions/8.md). That a write which POWER_ON cuts off leaves its bytes as they were is PRESUMED
(notes/assumptions/13.md), and that the first exchange carries the next number is DEDUCED (notes/assumptions/7.md). -/
def Obligations.PowerOnLoadsTheStore : Prop :=
  (∀ s : State, exec .powerOn s =
    .next { State.poweredOn s.eeprom (s.imageTorn || s.store.save.isSome) s.resetLow with
      pending := s.pending, draws := s.draws }) ∧
  (∀ (s : State) (after : Nat) (imageRead marksRead : Bool),
    (s.loading = false → exec (.storeLoadComplete after imageRead marksRead) s = .next (s.elapse after)) ∧
    (s.loading = true → ∃ t : State, exec (.storeLoadComplete after imageRead marksRead) s = .next t ∧
      (let image := storedImage s
       let u := s.elapse after
       let good := imageRead = true ∧ s.imageTorn = false ∧ at2 image 0 = 1 ∧ at2 image 2 = 620 ∧
         (crc16 (image.take 620)).toNat = at2 image 620
       let faulted (x : State) : State := if marksRead then x else report .storeFault .nothing (some 2) x
       (good → t.params = (loadImage image s).params ∧ t.map = (loadImage image s).map ∧
         (∀ z, (t.zone z).policy = ((loadImage image s).zone z).policy) ∧
         t.incidents = (faulted (allBranches.foldl (loadEntry image) u)).incidents) ∧
       (¬ good → t.params = Params.default ∧ (∀ b, t.entry b = MapEntry.default) ∧
         (∀ z, (t.zone z).policy = .auto) ∧
         t.incidents = (faulted (report .storeInvalid .nothing none u)).incidents)) ∧
      (∀ b,
        let marked := marksRead = false ∨
          markReadsSet (readByte s.eeprom (4096 + 2 * b.val)) (readByte s.eeprom (4096 + 2 * b.val + 1))
        (marked → t.branch b = Branch.toIsolating .stored t.params.isolateWindow) ∧
        (¬ marked → (t.entry b).slotTag = none → t.branch b = Branch.initial) ∧
        (¬ marked → (t.entry b).slotTag ≠ none → (t.entry b).autoAdmit = true →
          t.branch b =
            { Branch.initial with
              state := .priming
              attempts := 1
              timer := some (.start t.params.primeWindow)
              supply := (t.entry b).primePosition
              ret := .opened }) ∧
        (¬ marked → (t.entry b).slotTag ≠ none → (t.entry b).autoAdmit = false →
          t.branch b = { Branch.initial with state := .vacant })) ∧
      (s.store.queue = [] → (∀ b, (s.branch b).state.isIsolation = false) →
        t.store.queue = (allBranches.filter fun b => (t.branch b).isolationMark && (t.branch b).state.isIsolation).map
          fun b => { branch := b, value := true }) ∧
      (t.activeFeed = t.params.preferredFeed ∧ (t.feed t.activeFeed).inlet = .opened ∧
        (t.feed t.activeFeed.other).inlet = .closed ∧ t.startup = some (.start t.params.switchWindow)) ∧
      t.timer = CycleTimer.restarted (s.clock + after) ∧ t.loading = false ∧ t.eeprom = s.eeprom ∧
      (s.resetLow = false → t.scanner =
        { number := s.scanner.number + 1,
          exchange := some { module := 0, command := commandFor t 0, began := s.clock + after },
          next := 1,
          roundStart := s.clock + after,
          roundInterval := t.params.scanInterval }) ∧
      (s.resetLow = true → t.scanner.exchange = none ∧ ∀ p, (t.port p).rx = .idle) ∧
      ∀ p, (t.port p).flags[9] = true)) ∧
  (∀ (image : List Byte) (s : State) (b : BranchId),
    let o := 124 + 10 * b.val
    let usable := at1 image o = 1 ∧ at1 image (o + 1) < 128 ∧ at1 image (o + 2) < 2 ∧ at1 image (o + 3) < 2 ∧
      at1 image (o + 7) < 3
    (¬ usable → loadEntry image s b = s.setEntry b MapEntry.default) ∧
    (∀ (tag : SlotTag) (auto : Bool) (authority : Authority) (policy : TtlPolicy),
      at1 image o = 1 → at1 image (o + 1) = tag.val → at1 image (o + 2) = (if auto then 1 else 0) →
      at1 image (o + 3) = authority.code → at1 image (o + 7) = policy.code →
      ((∃ c, c < b ∧ (s.entry c).slotTag = some tag) →
        loadEntry image s b = report .mapDuplicate (.branch b) (some tag.val) (s.setEntry b MapEntry.default)) ∧
      ((∀ c, c < b → (s.entry c).slotTag ≠ some tag) →
        loadEntry image s b = s.setEntry b
          (writtenEntry tag auto authority (at1 image (o + 4)) (at2 image (o + 5)) policy (at2 image (o + 8))))))

/-- R32, R61, R82, R103, R119, R135, R153, R171, R180 to R182, R191: what power-on reset leaves, whatever the EEPROM
holds, before the load is complete. R61 sets the branch states only once it is: every branch UNMAPPED until then is the
model's choice (notes/assumptions/8.md), as are the empty queue (notes/assumptions/1.md), the division of the load
(notes/assumptions/18.md) and the field `loading` (notes/assumptions/20.md). State.reset is the one with an erased EEPROM
and RESET_N high, which is the model's choice too (notes/assumptions/9.md). -/
def Obligations.ResetLeavesItsValues : Prop :=
  State.reset = State.poweredOn [] false false ∧
  ∀ (eeprom : List Host.Cell) (torn resetLow : Bool),
    let s := State.poweredOn eeprom torn resetLow
    (s.pending = [] ∧ s.uptime = 0 ∧ s.loading = true ∧ s.eeprom = eeprom ∧ s.imageTorn = torn) ∧
    (∀ p, (s.port p).rx = .idle ∧ (s.port p).flags = 0 ∧ (s.port p).mask = BitVec.allOnes 10 ∧
      attention s p = false) ∧
    (∀ b, (s.branch b).state = .unmapped ∧ (s.branch b).supply = 0 ∧ (s.branch b).ret = .closed ∧
      (s.branch b).isolationMark = false ∧
      s.measure b = { supplyFlow := 0, returnFlow := 0, temperature := some 0, supplyFeedback := 0,
                      returnFeedback := .closed } ∧
      s.pendingPlan b = { demand := 0, floor := 100, cap := 2000, weight := 8 } ∧
      s.activePlan b = { demand := 0, floor := 100, cap := 2000, weight := 8 } ∧
      (s.drip b).amount = 0 ∧ (s.drip b).level = .none) ∧
    (∀ z, (s.segment z).link = .missing ∧ (s.segment z).misses = 0 ∧ (s.zone z).state = .dry ∧
      (s.zone z).confirm = none) ∧
    (s.head.link = .missing ∧ s.freeze = none ∧ s.timer.timing = .free ∧ s.timer.lockIn = 0 ∧
      s.summary.cycleTime = none ∧ s.handover = none ∧ s.switch = none ∧ s.bothOpen = false ∧ s.feedLock = false) ∧
    (∀ f, s.lease f = none ∧ (s.feed f).failed = false ∧ (s.feed f).lowTimer = none ∧ (s.feed f).proof = 0) ∧
    (s.mode = .run ∧ s.faultHold = none ∧ s.park = none) ∧
    s.incidents = { records := [], next := 0, overflow := 0 } ∧
    s.store = { save := none, queue := [], write := none, retry := none }

/-! ## Invariants -/

/-- Every invariant below holds right after reset. The values of the map, the parameters, the inlets and the EEPROM there
are the model's choice (notes/assumptions/8.md and 9.md). -/
def Obligations.ResetMeetsTheInvariants : Prop :=
  TagsDistinct State.reset ∧ EntriesFit State.reset ∧ StatesMatchEntries State.reset ∧ RecordsAgree State.reset ∧
  AttemptsFit State.reset ∧ PlansInRange State.reset ∧
  OutputsFit State.reset ∧ MarksMatch State.reset ∧ FloorsBelowCaps State.reset ∧ TargetsBounded State.reset ∧
  PlansAtRest State.reset ∧ ParkedAtRest State.reset ∧ MeasurementsInRange State.reset ∧ LinksFit State.reset ∧ DripsBounded State.reset ∧
  ZonesFit State.reset ∧ InletsAgree State.reset ∧ FeedsAgree State.reset ∧ LeasesOrdered State.reset ∧
  ModesAgree State.reset ∧ IncidentsFit State.reset ∧ ParamsInRange State.reset ∧ StoreFits State.reset ∧
  Memory.wf State.reset = true

/-- R3, R5, R11, R36 to R38, R45, R48, R156: every step keeps the tags distinct, the entries in range and in agreement
with the branch states, each branch record in agreement with its state, the priming attempts between 0 and 8, the valves
as R38's table commands them, and each isolation mark set exactly in the isolation states. -/
def Obligations.TheMapAndTheBranchesStayInStep : Prop :=
  ∀ s t : State, step s = .next t →
    (TagsDistinct s → TagsDistinct t) ∧ (EntriesFit s → EntriesFit t) ∧
    (StatesMatchEntries s → StatesMatchEntries t) ∧ (RecordsAgree s → RecordsAgree t) ∧
    (ParamsInRange s → AttemptsFit s → AttemptsFit t) ∧
    (OutputsFit s → OutputsFit t) ∧ (MarksMatch s → MarksMatch t)

/-- R57, R58, R63, R94: every step keeps each plan value and weight in its range, each floor at or below its cap, each
target between the active floor and the active cap, both plan copies of every UNMAPPED and VACANT branch at their
defaults, and no branch admitted in PARKING and PARKED. -/
def Obligations.ThePlanStaysBounded : Prop :=
  ∀ s t : State, step s = .next t →
    (FloorsBelowCaps s → FloorsBelowCaps t) ∧ (ParkedAtRest s → ParkedAtRest t) ∧ (PlansAtRest s → PlansAtRest t) ∧
    (PlansInRange s → PlansInRange t) ∧
    (FloorsBelowCaps s → ParkedAtRest s → TargetsBounded s → TargetsBounded t)

/-- R25, R28, R138, R140: every step keeps the measurements in the ranges of their fields, the link states and misses in
step, the accumulators between 0 and four times DRIP_THRESHOLD, and the counts and confirm timer of a zone in step with
its state. -/
def Obligations.TheFieldRecordsStayInRange : Prop :=
  ∀ s t : State, step s = .next t →
    (MeasurementsInRange s → MeasurementsInRange t) ∧ (LinksFit s → LinksFit t) ∧ (DripsBounded s → DripsBounded t) ∧
    (ZonesFit s → ZonesFit t)

/-- R105, R121 to R123: every step keeps the inlets, the switch, the start-up and both-open in agreement, so that the
active feed's inlet is always commanded OPEN; the low-pressure timer of a FAILED feed stopped; and the marks of each lease
in order, with its age in the range of its state: BOUND only below t1 (notes/assumptions/24.md). What holds of the inlets
during the load is the model's choice (notes/assumptions/8.md), and that a failover ends a kept both-open is DEDUCED
(notes/assumptions/14.md). -/
def Obligations.TheFeedsAndLeasesStayInStep : Prop :=
  ∀ s t : State, step s = .next t →
    (InletsAgree s → InletsAgree t ∧ ∃ f, (t.feed f).inlet = .opened) ∧ (FeedsAgree s → FeedsAgree t) ∧
    (LeasesOrdered s → LeasesOrdered t)

/-- R163, R167, R168, R174: every step keeps SAFE in fault hold only, a fault-hold count of 1 to 255, a park record
exactly in PARKING, and the Incident List at no more than 32 records, of distinct kinds and subjects and distinct numbers. -/
def Obligations.ModesAndIncidentsStayInBounds : Prop :=
  ∀ s t : State, step s = .next t → (ModesAgree s → ModesAgree t) ∧ (IncidentsFit s → IncidentsFit t)

/-- R24, R48, R71, R80, R101, R134, R151, R170, R190, R193, R194: every step keeps the parameters in their ranges, the
save, the mark write queue and the mark write in progress well formed, and the EEPROM in its canonical form, and leaves
every byte outside the two areas unwritten, also by a write that fails (PRESUMED, notes/assumptions/13.md). -/
def Obligations.TheParametersAndTheStoreStayInBounds : Prop :=
  ∀ s t : State, step s = .next t →
    (ParamsInRange s → ParamsInRange t) ∧ (StoreFits s → StoreFits t) ∧
    (StoreFits s → Memory.wf s = true → Memory.wf t = true) ∧
    (StoreFits s → ∀ a, ¬ inAreas a → readByte t.eeprom a = readByte s.eeprom a)
end

