-- ==== Sys2Proof/Laws/State.lean ====
section
/-! SUPPORT. One lemma for each field that each update of State leaves alone, and the value it reads where it writes. -/

namespace Sys2Proof.Machine

open Sys2Proof

/-! ### Tables -/

theorem get_put {α : Type} {n : Nat} (v : Vector α n) (i j : Fin n) (x : α) :
    (put v i x).get j = if j = i then x else v.get j := by
  simp only [put, Vector.get_eq_getElem, Vector.getElem_set, Fin.ext_iff]
  split <;> split <;> simp_all

@[simp] theorem get_put_same {α : Type} {n : Nat} (v : Vector α n) (i : Fin n) (x : α) : (put v i x).get i = x := by
  simp [get_put]

@[simp] theorem get_mapTable {α : Type} {n : Nat} (f : Fin n → α → α) (v : Vector α n) (i : Fin n) :
    (mapTable f v).get i = f i (v.get i) := by
  simp [mapTable, Vector.get_eq_getElem]

theorem Port.idx_injective {p q : Port} (h : p.idx = q.idx) : p = q := by
  cases p <;> cases q <;> first | rfl | (exact absurd h (by decide))

theorem Feed.idx_injective {f g : Feed} (h : f.idx = g.idx) : f = g := by
  cases f <;> cases g <;> first | rfl | (exact absurd h (by decide))

@[simp] theorem Feed.other_other (f : Feed) : f.other.other = f := by cases f <;> rfl

theorem Feed.other_ne (f : Feed) : f.other ≠ f := by cases f <;> decide

theorem Feed.ne_iff (f g : Feed) : f ≠ g ↔ f = g.other := by cases f <;> cases g <;> decide

/-! ### Reading back -/

@[simp] theorem State.setPort_port (s : State) (q p : Port) (x : LinkPort) :
    (s.setPort q x).port p = if p = q then x else s.port p := by
  by_cases h : p = q
  · subst h; simp [State.setPort, State.port]
  · have : p.idx ≠ q.idx := fun e => h (Port.idx_injective e)
    simp [State.setPort, State.port, get_put, h, this]

@[simp] theorem State.setEntry_entry (s : State) (b c : BranchId) (x : MapEntry) :
    (s.setEntry b x).entry c = if c = b then x else s.entry c := by simp [State.setEntry, State.entry, get_put]

@[simp] theorem State.setBranch_branch (s : State) (b c : BranchId) (x : Branch) :
    (s.setBranch b x).branch c = if c = b then x else s.branch c := by simp [State.setBranch, State.branch, get_put]

@[simp] theorem State.setMeasure_measure (s : State) (b c : BranchId) (x : Measurement) :
    (s.setMeasure b x).measure c = if c = b then x else s.measure c := by
  simp [State.setMeasure, State.measure, get_put]

@[simp] theorem State.setSegment_segment (s : State) (z c : SegId) (x : SegmentRecord) :
    (s.setSegment z x).segment c = if c = z then x else s.segment c := by
  simp [State.setSegment, State.segment, get_put]

@[simp] theorem State.setPendingPlan_pendingPlan (s : State) (b c : BranchId) (x : PlanEntry) :
    (s.setPendingPlan b x).pendingPlan c = if c = b then x else s.pendingPlan c := by
  simp [State.setPendingPlan, State.pendingPlan, get_put]

@[simp] theorem State.planToDefaults_pendingPlan (s : State) (b c : BranchId) :
    (s.planToDefaults b).pendingPlan c = if c = b then PlanEntry.default else s.pendingPlan c := by
  simp [State.planToDefaults, State.pendingPlan, get_put]

@[simp] theorem State.planToDefaults_activePlan (s : State) (b c : BranchId) :
    (s.planToDefaults b).activePlan c = if c = b then PlanEntry.default else s.activePlan c := by
  simp [State.planToDefaults, State.activePlan, get_put]

@[simp] theorem State.setLease_lease (s : State) (f g : Feed) (x : Option Lease) :
    (s.setLease f x).lease g = if g = f then x else s.lease g := by
  by_cases h : g = f
  · subst h; simp [State.setLease, State.lease]
  · have : g.idx ≠ f.idx := fun e => h (Feed.idx_injective e)
    simp [State.setLease, State.lease, get_put, h, this]

@[simp] theorem State.setFeed_feed (s : State) (f g : Feed) (x : FeedRecord) :
    (s.setFeed f x).feed g = if g = f then x else s.feed g := by
  by_cases h : g = f
  · subst h; simp [State.setFeed, State.feed]
  · have : g.idx ≠ f.idx := fun e => h (Feed.idx_injective e)
    simp [State.setFeed, State.feed, get_put, h, this]

@[simp] theorem State.setInlet_feed (s : State) (f g : Feed) (v : Valve) :
    (s.setInlet f v).feed g = if g = f then { s.feed f with inlet := v } else s.feed g := by
  simp [State.setInlet]

@[simp] theorem State.setDrip_drip (s : State) (b c : BranchId) (x : Accumulator) :
    (s.setDrip b x).drip c = if c = b then x else s.drip c := by simp [State.setDrip, State.drip, get_put]

@[simp] theorem State.setZone_zone (s : State) (z c : SegId) (x : Zone) :
    (s.setZone z x).zone c = if c = z then x else s.zone c := by simp [State.setZone, State.zone, get_put]

@[simp] theorem enter_branch (s : State) (b c : BranchId) (x : Branch) :
    (enter b x s).branch c = if c = b then x else s.branch c := State.setBranch_branch s b c x

theorem notifyAll_port (s : State) (n : Notice) (p : Port) : (notifyAll n s).port p = (s.port p).flag n := by
  simp [notifyAll, State.port]

theorem State.answering_port (s : State) (q p : Port) (k : Byte) (r : Reply) :
    (s.answering q k r).port p =
      if p = q then { s.port q with rx := .answering, answer := some { code := k, status := r.status, body := r.body } }
      else s.port p := by
  simp [State.answering]

/-! ### What each update leaves alone -/

/-! ### State.setPort -/

@[simp] theorem State.setPort_pending (s : State) (q : Port) (x : LinkPort) : (s.setPort q x).pending = s.pending := rfl
@[simp] theorem State.setPort_clock (s : State) (q : Port) (x : LinkPort) : (s.setPort q x).clock = s.clock := rfl
@[simp] theorem State.setPort_loading (s : State) (q : Port) (x : LinkPort) : (s.setPort q x).loading = s.loading := rfl
@[simp] theorem State.setPort_resetLow (s : State) (q : Port) (x : LinkPort) : (s.setPort q x).resetLow = s.resetLow := rfl
@[simp] theorem State.setPort_restartDue (s : State) (q : Port) (x : LinkPort) : (s.setPort q x).restartDue = s.restartDue := rfl
@[simp] theorem State.setPort_saveAborted (s : State) (q : Port) (x : LinkPort) : (s.setPort q x).saveAborted = s.saveAborted := rfl
@[simp] theorem State.setPort_map (s : State) (q : Port) (x : LinkPort) : (s.setPort q x).map = s.map := rfl
@[simp] theorem State.setPort_branches (s : State) (q : Port) (x : LinkPort) : (s.setPort q x).branches = s.branches := rfl
@[simp] theorem State.setPort_scanner (s : State) (q : Port) (x : LinkPort) : (s.setPort q x).scanner = s.scanner := rfl
@[simp] theorem State.setPort_measured (s : State) (q : Port) (x : LinkPort) : (s.setPort q x).measured = s.measured := rfl
@[simp] theorem State.setPort_segments (s : State) (q : Port) (x : LinkPort) : (s.setPort q x).segments = s.segments := rfl
@[simp] theorem State.setPort_head (s : State) (q : Port) (x : LinkPort) : (s.setPort q x).head = s.head := rfl
@[simp] theorem State.setPort_planPending (s : State) (q : Port) (x : LinkPort) : (s.setPort q x).planPending = s.planPending := rfl
@[simp] theorem State.setPort_planActive (s : State) (q : Port) (x : LinkPort) : (s.setPort q x).planActive = s.planActive := rfl
@[simp] theorem State.setPort_freeze (s : State) (q : Port) (x : LinkPort) : (s.setPort q x).freeze = s.freeze := rfl
@[simp] theorem State.setPort_timer (s : State) (q : Port) (x : LinkPort) : (s.setPort q x).timer = s.timer := rfl
@[simp] theorem State.setPort_summary (s : State) (q : Port) (x : LinkPort) : (s.setPort q x).summary = s.summary := rfl
@[simp] theorem State.setPort_leases (s : State) (q : Port) (x : LinkPort) : (s.setPort q x).leases = s.leases := rfl
@[simp] theorem State.setPort_handover (s : State) (q : Port) (x : LinkPort) : (s.setPort q x).handover = s.handover := rfl
@[simp] theorem State.setPort_feeds (s : State) (q : Port) (x : LinkPort) : (s.setPort q x).feeds = s.feeds := rfl
@[simp] theorem State.setPort_activeFeed (s : State) (q : Port) (x : LinkPort) : (s.setPort q x).activeFeed = s.activeFeed := rfl
@[simp] theorem State.setPort_switch (s : State) (q : Port) (x : LinkPort) : (s.setPort q x).switch = s.switch := rfl
@[simp] theorem State.setPort_startup (s : State) (q : Port) (x : LinkPort) : (s.setPort q x).startup = s.startup := rfl
@[simp] theorem State.setPort_bothOpen (s : State) (q : Port) (x : LinkPort) : (s.setPort q x).bothOpen = s.bothOpen := rfl
@[simp] theorem State.setPort_feedLock (s : State) (q : Port) (x : LinkPort) : (s.setPort q x).feedLock = s.feedLock := rfl
@[simp] theorem State.setPort_drips (s : State) (q : Port) (x : LinkPort) : (s.setPort q x).drips = s.drips := rfl
@[simp] theorem State.setPort_zones (s : State) (q : Port) (x : LinkPort) : (s.setPort q x).zones = s.zones := rfl
@[simp] theorem State.setPort_mode (s : State) (q : Port) (x : LinkPort) : (s.setPort q x).mode = s.mode := rfl
@[simp] theorem State.setPort_faultHold (s : State) (q : Port) (x : LinkPort) : (s.setPort q x).faultHold = s.faultHold := rfl
@[simp] theorem State.setPort_park (s : State) (q : Port) (x : LinkPort) : (s.setPort q x).park = s.park := rfl
@[simp] theorem State.setPort_incidents (s : State) (q : Port) (x : LinkPort) : (s.setPort q x).incidents = s.incidents := rfl
@[simp] theorem State.setPort_store (s : State) (q : Port) (x : LinkPort) : (s.setPort q x).store = s.store := rfl
@[simp] theorem State.setPort_params (s : State) (q : Port) (x : LinkPort) : (s.setPort q x).params = s.params := rfl
@[simp] theorem State.setPort_eeprom (s : State) (q : Port) (x : LinkPort) : (s.setPort q x).eeprom = s.eeprom := rfl
@[simp] theorem State.setPort_imageTorn (s : State) (q : Port) (x : LinkPort) : (s.setPort q x).imageTorn = s.imageTorn := rfl
@[simp] theorem State.setPort_draws (s : State) (q : Port) (x : LinkPort) : (s.setPort q x).draws = s.draws := rfl
@[simp] theorem State.setPort_entry (s : State) (q : Port) (x : LinkPort) (c : BranchId) : (s.setPort q x).entry c = s.entry c := rfl
@[simp] theorem State.setPort_branch (s : State) (q : Port) (x : LinkPort) (c : BranchId) : (s.setPort q x).branch c = s.branch c := rfl
@[simp] theorem State.setPort_measure (s : State) (q : Port) (x : LinkPort) (c : BranchId) : (s.setPort q x).measure c = s.measure c := rfl
@[simp] theorem State.setPort_segment (s : State) (q : Port) (x : LinkPort) (c : SegId) : (s.setPort q x).segment c = s.segment c := rfl
@[simp] theorem State.setPort_pendingPlan (s : State) (q : Port) (x : LinkPort) (c : BranchId) : (s.setPort q x).pendingPlan c = s.pendingPlan c := rfl
@[simp] theorem State.setPort_activePlan (s : State) (q : Port) (x : LinkPort) (c : BranchId) : (s.setPort q x).activePlan c = s.activePlan c := rfl
@[simp] theorem State.setPort_lease (s : State) (q : Port) (x : LinkPort) (g : Feed) : (s.setPort q x).lease g = s.lease g := rfl
@[simp] theorem State.setPort_feed (s : State) (q : Port) (x : LinkPort) (g : Feed) : (s.setPort q x).feed g = s.feed g := rfl
@[simp] theorem State.setPort_drip (s : State) (q : Port) (x : LinkPort) (c : BranchId) : (s.setPort q x).drip c = s.drip c := rfl
@[simp] theorem State.setPort_zone (s : State) (q : Port) (x : LinkPort) (c : SegId) : (s.setPort q x).zone c = s.zone c := rfl
@[simp] theorem State.setPort_uptime (s : State) (q : Port) (x : LinkPort) : (s.setPort q x).uptime = s.uptime := rfl
@[simp] theorem State.setPort_running (s : State) (q : Port) (x : LinkPort) : (s.setPort q x).running = s.running := rfl
@[simp] theorem State.setPort_held (s : State) (q : Port) (x : LinkPort) : (s.setPort q x).held = s.held := rfl

/-! ### State.setEntry -/

@[simp] theorem State.setEntry_pending (s : State) (b : BranchId) (x : MapEntry) : (s.setEntry b x).pending = s.pending := rfl
@[simp] theorem State.setEntry_clock (s : State) (b : BranchId) (x : MapEntry) : (s.setEntry b x).clock = s.clock := rfl
@[simp] theorem State.setEntry_loading (s : State) (b : BranchId) (x : MapEntry) : (s.setEntry b x).loading = s.loading := rfl
@[simp] theorem State.setEntry_resetLow (s : State) (b : BranchId) (x : MapEntry) : (s.setEntry b x).resetLow = s.resetLow := rfl
@[simp] theorem State.setEntry_restartDue (s : State) (b : BranchId) (x : MapEntry) : (s.setEntry b x).restartDue = s.restartDue := rfl
@[simp] theorem State.setEntry_saveAborted (s : State) (b : BranchId) (x : MapEntry) : (s.setEntry b x).saveAborted = s.saveAborted := rfl
@[simp] theorem State.setEntry_ports (s : State) (b : BranchId) (x : MapEntry) : (s.setEntry b x).ports = s.ports := rfl
@[simp] theorem State.setEntry_branches (s : State) (b : BranchId) (x : MapEntry) : (s.setEntry b x).branches = s.branches := rfl
@[simp] theorem State.setEntry_scanner (s : State) (b : BranchId) (x : MapEntry) : (s.setEntry b x).scanner = s.scanner := rfl
@[simp] theorem State.setEntry_measured (s : State) (b : BranchId) (x : MapEntry) : (s.setEntry b x).measured = s.measured := rfl
@[simp] theorem State.setEntry_segments (s : State) (b : BranchId) (x : MapEntry) : (s.setEntry b x).segments = s.segments := rfl
@[simp] theorem State.setEntry_head (s : State) (b : BranchId) (x : MapEntry) : (s.setEntry b x).head = s.head := rfl
@[simp] theorem State.setEntry_planPending (s : State) (b : BranchId) (x : MapEntry) : (s.setEntry b x).planPending = s.planPending := rfl
@[simp] theorem State.setEntry_planActive (s : State) (b : BranchId) (x : MapEntry) : (s.setEntry b x).planActive = s.planActive := rfl
@[simp] theorem State.setEntry_freeze (s : State) (b : BranchId) (x : MapEntry) : (s.setEntry b x).freeze = s.freeze := rfl
@[simp] theorem State.setEntry_timer (s : State) (b : BranchId) (x : MapEntry) : (s.setEntry b x).timer = s.timer := rfl
@[simp] theorem State.setEntry_summary (s : State) (b : BranchId) (x : MapEntry) : (s.setEntry b x).summary = s.summary := rfl
@[simp] theorem State.setEntry_leases (s : State) (b : BranchId) (x : MapEntry) : (s.setEntry b x).leases = s.leases := rfl
@[simp] theorem State.setEntry_handover (s : State) (b : BranchId) (x : MapEntry) : (s.setEntry b x).handover = s.handover := rfl
@[simp] theorem State.setEntry_feeds (s : State) (b : BranchId) (x : MapEntry) : (s.setEntry b x).feeds = s.feeds := rfl
@[simp] theorem State.setEntry_activeFeed (s : State) (b : BranchId) (x : MapEntry) : (s.setEntry b x).activeFeed = s.activeFeed := rfl
@[simp] theorem State.setEntry_switch (s : State) (b : BranchId) (x : MapEntry) : (s.setEntry b x).switch = s.switch := rfl
@[simp] theorem State.setEntry_startup (s : State) (b : BranchId) (x : MapEntry) : (s.setEntry b x).startup = s.startup := rfl
@[simp] theorem State.setEntry_bothOpen (s : State) (b : BranchId) (x : MapEntry) : (s.setEntry b x).bothOpen = s.bothOpen := rfl
@[simp] theorem State.setEntry_feedLock (s : State) (b : BranchId) (x : MapEntry) : (s.setEntry b x).feedLock = s.feedLock := rfl
@[simp] theorem State.setEntry_drips (s : State) (b : BranchId) (x : MapEntry) : (s.setEntry b x).drips = s.drips := rfl
@[simp] theorem State.setEntry_zones (s : State) (b : BranchId) (x : MapEntry) : (s.setEntry b x).zones = s.zones := rfl
@[simp] theorem State.setEntry_mode (s : State) (b : BranchId) (x : MapEntry) : (s.setEntry b x).mode = s.mode := rfl
@[simp] theorem State.setEntry_faultHold (s : State) (b : BranchId) (x : MapEntry) : (s.setEntry b x).faultHold = s.faultHold := rfl
@[simp] theorem State.setEntry_park (s : State) (b : BranchId) (x : MapEntry) : (s.setEntry b x).park = s.park := rfl
@[simp] theorem State.setEntry_incidents (s : State) (b : BranchId) (x : MapEntry) : (s.setEntry b x).incidents = s.incidents := rfl
@[simp] theorem State.setEntry_store (s : State) (b : BranchId) (x : MapEntry) : (s.setEntry b x).store = s.store := rfl
@[simp] theorem State.setEntry_params (s : State) (b : BranchId) (x : MapEntry) : (s.setEntry b x).params = s.params := rfl
@[simp] theorem State.setEntry_eeprom (s : State) (b : BranchId) (x : MapEntry) : (s.setEntry b x).eeprom = s.eeprom := rfl
@[simp] theorem State.setEntry_imageTorn (s : State) (b : BranchId) (x : MapEntry) : (s.setEntry b x).imageTorn = s.imageTorn := rfl
@[simp] theorem State.setEntry_draws (s : State) (b : BranchId) (x : MapEntry) : (s.setEntry b x).draws = s.draws := rfl
@[simp] theorem State.setEntry_port (s : State) (b : BranchId) (x : MapEntry) (p : Port) : (s.setEntry b x).port p = s.port p := rfl
@[simp] theorem State.setEntry_branch (s : State) (b : BranchId) (x : MapEntry) (c : BranchId) : (s.setEntry b x).branch c = s.branch c := rfl
@[simp] theorem State.setEntry_measure (s : State) (b : BranchId) (x : MapEntry) (c : BranchId) : (s.setEntry b x).measure c = s.measure c := rfl
@[simp] theorem State.setEntry_segment (s : State) (b : BranchId) (x : MapEntry) (c : SegId) : (s.setEntry b x).segment c = s.segment c := rfl
@[simp] theorem State.setEntry_pendingPlan (s : State) (b : BranchId) (x : MapEntry) (c : BranchId) : (s.setEntry b x).pendingPlan c = s.pendingPlan c := rfl
@[simp] theorem State.setEntry_activePlan (s : State) (b : BranchId) (x : MapEntry) (c : BranchId) : (s.setEntry b x).activePlan c = s.activePlan c := rfl
@[simp] theorem State.setEntry_lease (s : State) (b : BranchId) (x : MapEntry) (g : Feed) : (s.setEntry b x).lease g = s.lease g := rfl
@[simp] theorem State.setEntry_feed (s : State) (b : BranchId) (x : MapEntry) (g : Feed) : (s.setEntry b x).feed g = s.feed g := rfl
@[simp] theorem State.setEntry_drip (s : State) (b : BranchId) (x : MapEntry) (c : BranchId) : (s.setEntry b x).drip c = s.drip c := rfl
@[simp] theorem State.setEntry_zone (s : State) (b : BranchId) (x : MapEntry) (c : SegId) : (s.setEntry b x).zone c = s.zone c := rfl
@[simp] theorem State.setEntry_uptime (s : State) (b : BranchId) (x : MapEntry) : (s.setEntry b x).uptime = s.uptime := rfl
@[simp] theorem State.setEntry_running (s : State) (b : BranchId) (x : MapEntry) : (s.setEntry b x).running = s.running := rfl
@[simp] theorem State.setEntry_held (s : State) (b : BranchId) (x : MapEntry) : (s.setEntry b x).held = s.held := rfl

/-! ### State.setBranch -/

@[simp] theorem State.setBranch_pending (s : State) (b : BranchId) (x : Branch) : (s.setBranch b x).pending = s.pending := rfl
@[simp] theorem State.setBranch_clock (s : State) (b : BranchId) (x : Branch) : (s.setBranch b x).clock = s.clock := rfl
@[simp] theorem State.setBranch_loading (s : State) (b : BranchId) (x : Branch) : (s.setBranch b x).loading = s.loading := rfl
@[simp] theorem State.setBranch_resetLow (s : State) (b : BranchId) (x : Branch) : (s.setBranch b x).resetLow = s.resetLow := rfl
@[simp] theorem State.setBranch_restartDue (s : State) (b : BranchId) (x : Branch) : (s.setBranch b x).restartDue = s.restartDue := rfl
@[simp] theorem State.setBranch_saveAborted (s : State) (b : BranchId) (x : Branch) : (s.setBranch b x).saveAborted = s.saveAborted := rfl
@[simp] theorem State.setBranch_ports (s : State) (b : BranchId) (x : Branch) : (s.setBranch b x).ports = s.ports := rfl
@[simp] theorem State.setBranch_map (s : State) (b : BranchId) (x : Branch) : (s.setBranch b x).map = s.map := rfl
@[simp] theorem State.setBranch_scanner (s : State) (b : BranchId) (x : Branch) : (s.setBranch b x).scanner = s.scanner := rfl
@[simp] theorem State.setBranch_measured (s : State) (b : BranchId) (x : Branch) : (s.setBranch b x).measured = s.measured := rfl
@[simp] theorem State.setBranch_segments (s : State) (b : BranchId) (x : Branch) : (s.setBranch b x).segments = s.segments := rfl
@[simp] theorem State.setBranch_head (s : State) (b : BranchId) (x : Branch) : (s.setBranch b x).head = s.head := rfl
@[simp] theorem State.setBranch_planPending (s : State) (b : BranchId) (x : Branch) : (s.setBranch b x).planPending = s.planPending := rfl
@[simp] theorem State.setBranch_planActive (s : State) (b : BranchId) (x : Branch) : (s.setBranch b x).planActive = s.planActive := rfl
@[simp] theorem State.setBranch_freeze (s : State) (b : BranchId) (x : Branch) : (s.setBranch b x).freeze = s.freeze := rfl
@[simp] theorem State.setBranch_timer (s : State) (b : BranchId) (x : Branch) : (s.setBranch b x).timer = s.timer := rfl
@[simp] theorem State.setBranch_summary (s : State) (b : BranchId) (x : Branch) : (s.setBranch b x).summary = s.summary := rfl
@[simp] theorem State.setBranch_leases (s : State) (b : BranchId) (x : Branch) : (s.setBranch b x).leases = s.leases := rfl
@[simp] theorem State.setBranch_handover (s : State) (b : BranchId) (x : Branch) : (s.setBranch b x).handover = s.handover := rfl
@[simp] theorem State.setBranch_feeds (s : State) (b : BranchId) (x : Branch) : (s.setBranch b x).feeds = s.feeds := rfl
@[simp] theorem State.setBranch_activeFeed (s : State) (b : BranchId) (x : Branch) : (s.setBranch b x).activeFeed = s.activeFeed := rfl
@[simp] theorem State.setBranch_switch (s : State) (b : BranchId) (x : Branch) : (s.setBranch b x).switch = s.switch := rfl
@[simp] theorem State.setBranch_startup (s : State) (b : BranchId) (x : Branch) : (s.setBranch b x).startup = s.startup := rfl
@[simp] theorem State.setBranch_bothOpen (s : State) (b : BranchId) (x : Branch) : (s.setBranch b x).bothOpen = s.bothOpen := rfl
@[simp] theorem State.setBranch_feedLock (s : State) (b : BranchId) (x : Branch) : (s.setBranch b x).feedLock = s.feedLock := rfl
@[simp] theorem State.setBranch_drips (s : State) (b : BranchId) (x : Branch) : (s.setBranch b x).drips = s.drips := rfl
@[simp] theorem State.setBranch_zones (s : State) (b : BranchId) (x : Branch) : (s.setBranch b x).zones = s.zones := rfl
@[simp] theorem State.setBranch_mode (s : State) (b : BranchId) (x : Branch) : (s.setBranch b x).mode = s.mode := rfl
@[simp] theorem State.setBranch_faultHold (s : State) (b : BranchId) (x : Branch) : (s.setBranch b x).faultHold = s.faultHold := rfl
@[simp] theorem State.setBranch_park (s : State) (b : BranchId) (x : Branch) : (s.setBranch b x).park = s.park := rfl
@[simp] theorem State.setBranch_incidents (s : State) (b : BranchId) (x : Branch) : (s.setBranch b x).incidents = s.incidents := rfl
@[simp] theorem State.setBranch_store (s : State) (b : BranchId) (x : Branch) : (s.setBranch b x).store = s.store := rfl
@[simp] theorem State.setBranch_params (s : State) (b : BranchId) (x : Branch) : (s.setBranch b x).params = s.params := rfl
@[simp] theorem State.setBranch_eeprom (s : State) (b : BranchId) (x : Branch) : (s.setBranch b x).eeprom = s.eeprom := rfl
@[simp] theorem State.setBranch_imageTorn (s : State) (b : BranchId) (x : Branch) : (s.setBranch b x).imageTorn = s.imageTorn := rfl
@[simp] theorem State.setBranch_draws (s : State) (b : BranchId) (x : Branch) : (s.setBranch b x).draws = s.draws := rfl
@[simp] theorem State.setBranch_port (s : State) (b : BranchId) (x : Branch) (p : Port) : (s.setBranch b x).port p = s.port p := rfl
@[simp] theorem State.setBranch_entry (s : State) (b : BranchId) (x : Branch) (c : BranchId) : (s.setBranch b x).entry c = s.entry c := rfl
@[simp] theorem State.setBranch_measure (s : State) (b : BranchId) (x : Branch) (c : BranchId) : (s.setBranch b x).measure c = s.measure c := rfl
@[simp] theorem State.setBranch_segment (s : State) (b : BranchId) (x : Branch) (c : SegId) : (s.setBranch b x).segment c = s.segment c := rfl
@[simp] theorem State.setBranch_pendingPlan (s : State) (b : BranchId) (x : Branch) (c : BranchId) : (s.setBranch b x).pendingPlan c = s.pendingPlan c := rfl
@[simp] theorem State.setBranch_activePlan (s : State) (b : BranchId) (x : Branch) (c : BranchId) : (s.setBranch b x).activePlan c = s.activePlan c := rfl
@[simp] theorem State.setBranch_lease (s : State) (b : BranchId) (x : Branch) (g : Feed) : (s.setBranch b x).lease g = s.lease g := rfl
@[simp] theorem State.setBranch_feed (s : State) (b : BranchId) (x : Branch) (g : Feed) : (s.setBranch b x).feed g = s.feed g := rfl
@[simp] theorem State.setBranch_drip (s : State) (b : BranchId) (x : Branch) (c : BranchId) : (s.setBranch b x).drip c = s.drip c := rfl
@[simp] theorem State.setBranch_zone (s : State) (b : BranchId) (x : Branch) (c : SegId) : (s.setBranch b x).zone c = s.zone c := rfl
@[simp] theorem State.setBranch_uptime (s : State) (b : BranchId) (x : Branch) : (s.setBranch b x).uptime = s.uptime := rfl
@[simp] theorem State.setBranch_running (s : State) (b : BranchId) (x : Branch) : (s.setBranch b x).running = s.running := rfl
@[simp] theorem State.setBranch_held (s : State) (b : BranchId) (x : Branch) : (s.setBranch b x).held = s.held := rfl

/-! ### State.setMeasure -/

@[simp] theorem State.setMeasure_pending (s : State) (b : BranchId) (x : Measurement) : (s.setMeasure b x).pending = s.pending := rfl
@[simp] theorem State.setMeasure_clock (s : State) (b : BranchId) (x : Measurement) : (s.setMeasure b x).clock = s.clock := rfl
@[simp] theorem State.setMeasure_loading (s : State) (b : BranchId) (x : Measurement) : (s.setMeasure b x).loading = s.loading := rfl
@[simp] theorem State.setMeasure_resetLow (s : State) (b : BranchId) (x : Measurement) : (s.setMeasure b x).resetLow = s.resetLow := rfl
@[simp] theorem State.setMeasure_restartDue (s : State) (b : BranchId) (x : Measurement) : (s.setMeasure b x).restartDue = s.restartDue := rfl
@[simp] theorem State.setMeasure_saveAborted (s : State) (b : BranchId) (x : Measurement) : (s.setMeasure b x).saveAborted = s.saveAborted := rfl
@[simp] theorem State.setMeasure_ports (s : State) (b : BranchId) (x : Measurement) : (s.setMeasure b x).ports = s.ports := rfl
@[simp] theorem State.setMeasure_map (s : State) (b : BranchId) (x : Measurement) : (s.setMeasure b x).map = s.map := rfl
@[simp] theorem State.setMeasure_branches (s : State) (b : BranchId) (x : Measurement) : (s.setMeasure b x).branches = s.branches := rfl
@[simp] theorem State.setMeasure_scanner (s : State) (b : BranchId) (x : Measurement) : (s.setMeasure b x).scanner = s.scanner := rfl
@[simp] theorem State.setMeasure_segments (s : State) (b : BranchId) (x : Measurement) : (s.setMeasure b x).segments = s.segments := rfl
@[simp] theorem State.setMeasure_head (s : State) (b : BranchId) (x : Measurement) : (s.setMeasure b x).head = s.head := rfl
@[simp] theorem State.setMeasure_planPending (s : State) (b : BranchId) (x : Measurement) : (s.setMeasure b x).planPending = s.planPending := rfl
@[simp] theorem State.setMeasure_planActive (s : State) (b : BranchId) (x : Measurement) : (s.setMeasure b x).planActive = s.planActive := rfl
@[simp] theorem State.setMeasure_freeze (s : State) (b : BranchId) (x : Measurement) : (s.setMeasure b x).freeze = s.freeze := rfl
@[simp] theorem State.setMeasure_timer (s : State) (b : BranchId) (x : Measurement) : (s.setMeasure b x).timer = s.timer := rfl
@[simp] theorem State.setMeasure_summary (s : State) (b : BranchId) (x : Measurement) : (s.setMeasure b x).summary = s.summary := rfl
@[simp] theorem State.setMeasure_leases (s : State) (b : BranchId) (x : Measurement) : (s.setMeasure b x).leases = s.leases := rfl
@[simp] theorem State.setMeasure_handover (s : State) (b : BranchId) (x : Measurement) : (s.setMeasure b x).handover = s.handover := rfl
@[simp] theorem State.setMeasure_feeds (s : State) (b : BranchId) (x : Measurement) : (s.setMeasure b x).feeds = s.feeds := rfl
@[simp] theorem State.setMeasure_activeFeed (s : State) (b : BranchId) (x : Measurement) : (s.setMeasure b x).activeFeed = s.activeFeed := rfl
@[simp] theorem State.setMeasure_switch (s : State) (b : BranchId) (x : Measurement) : (s.setMeasure b x).switch = s.switch := rfl
@[simp] theorem State.setMeasure_startup (s : State) (b : BranchId) (x : Measurement) : (s.setMeasure b x).startup = s.startup := rfl
@[simp] theorem State.setMeasure_bothOpen (s : State) (b : BranchId) (x : Measurement) : (s.setMeasure b x).bothOpen = s.bothOpen := rfl
@[simp] theorem State.setMeasure_feedLock (s : State) (b : BranchId) (x : Measurement) : (s.setMeasure b x).feedLock = s.feedLock := rfl
@[simp] theorem State.setMeasure_drips (s : State) (b : BranchId) (x : Measurement) : (s.setMeasure b x).drips = s.drips := rfl
@[simp] theorem State.setMeasure_zones (s : State) (b : BranchId) (x : Measurement) : (s.setMeasure b x).zones = s.zones := rfl
@[simp] theorem State.setMeasure_mode (s : State) (b : BranchId) (x : Measurement) : (s.setMeasure b x).mode = s.mode := rfl
@[simp] theorem State.setMeasure_faultHold (s : State) (b : BranchId) (x : Measurement) : (s.setMeasure b x).faultHold = s.faultHold := rfl
@[simp] theorem State.setMeasure_park (s : State) (b : BranchId) (x : Measurement) : (s.setMeasure b x).park = s.park := rfl
@[simp] theorem State.setMeasure_incidents (s : State) (b : BranchId) (x : Measurement) : (s.setMeasure b x).incidents = s.incidents := rfl
@[simp] theorem State.setMeasure_store (s : State) (b : BranchId) (x : Measurement) : (s.setMeasure b x).store = s.store := rfl
@[simp] theorem State.setMeasure_params (s : State) (b : BranchId) (x : Measurement) : (s.setMeasure b x).params = s.params := rfl
@[simp] theorem State.setMeasure_eeprom (s : State) (b : BranchId) (x : Measurement) : (s.setMeasure b x).eeprom = s.eeprom := rfl
@[simp] theorem State.setMeasure_imageTorn (s : State) (b : BranchId) (x : Measurement) : (s.setMeasure b x).imageTorn = s.imageTorn := rfl
@[simp] theorem State.setMeasure_draws (s : State) (b : BranchId) (x : Measurement) : (s.setMeasure b x).draws = s.draws := rfl
@[simp] theorem State.setMeasure_port (s : State) (b : BranchId) (x : Measurement) (p : Port) : (s.setMeasure b x).port p = s.port p := rfl
@[simp] theorem State.setMeasure_entry (s : State) (b : BranchId) (x : Measurement) (c : BranchId) : (s.setMeasure b x).entry c = s.entry c := rfl
@[simp] theorem State.setMeasure_branch (s : State) (b : BranchId) (x : Measurement) (c : BranchId) : (s.setMeasure b x).branch c = s.branch c := rfl
@[simp] theorem State.setMeasure_segment (s : State) (b : BranchId) (x : Measurement) (c : SegId) : (s.setMeasure b x).segment c = s.segment c := rfl
@[simp] theorem State.setMeasure_pendingPlan (s : State) (b : BranchId) (x : Measurement) (c : BranchId) : (s.setMeasure b x).pendingPlan c = s.pendingPlan c := rfl
@[simp] theorem State.setMeasure_activePlan (s : State) (b : BranchId) (x : Measurement) (c : BranchId) : (s.setMeasure b x).activePlan c = s.activePlan c := rfl
@[simp] theorem State.setMeasure_lease (s : State) (b : BranchId) (x : Measurement) (g : Feed) : (s.setMeasure b x).lease g = s.lease g := rfl
@[simp] theorem State.setMeasure_feed (s : State) (b : BranchId) (x : Measurement) (g : Feed) : (s.setMeasure b x).feed g = s.feed g := rfl
@[simp] theorem State.setMeasure_drip (s : State) (b : BranchId) (x : Measurement) (c : BranchId) : (s.setMeasure b x).drip c = s.drip c := rfl
@[simp] theorem State.setMeasure_zone (s : State) (b : BranchId) (x : Measurement) (c : SegId) : (s.setMeasure b x).zone c = s.zone c := rfl
@[simp] theorem State.setMeasure_uptime (s : State) (b : BranchId) (x : Measurement) : (s.setMeasure b x).uptime = s.uptime := rfl
@[simp] theorem State.setMeasure_running (s : State) (b : BranchId) (x : Measurement) : (s.setMeasure b x).running = s.running := rfl
@[simp] theorem State.setMeasure_held (s : State) (b : BranchId) (x : Measurement) : (s.setMeasure b x).held = s.held := rfl

/-! ### State.setSegment -/

@[simp] theorem State.setSegment_pending (s : State) (z : SegId) (x : SegmentRecord) : (s.setSegment z x).pending = s.pending := rfl
@[simp] theorem State.setSegment_clock (s : State) (z : SegId) (x : SegmentRecord) : (s.setSegment z x).clock = s.clock := rfl
@[simp] theorem State.setSegment_loading (s : State) (z : SegId) (x : SegmentRecord) : (s.setSegment z x).loading = s.loading := rfl
@[simp] theorem State.setSegment_resetLow (s : State) (z : SegId) (x : SegmentRecord) : (s.setSegment z x).resetLow = s.resetLow := rfl
@[simp] theorem State.setSegment_restartDue (s : State) (z : SegId) (x : SegmentRecord) : (s.setSegment z x).restartDue = s.restartDue := rfl
@[simp] theorem State.setSegment_saveAborted (s : State) (z : SegId) (x : SegmentRecord) : (s.setSegment z x).saveAborted = s.saveAborted := rfl
@[simp] theorem State.setSegment_ports (s : State) (z : SegId) (x : SegmentRecord) : (s.setSegment z x).ports = s.ports := rfl
@[simp] theorem State.setSegment_map (s : State) (z : SegId) (x : SegmentRecord) : (s.setSegment z x).map = s.map := rfl
@[simp] theorem State.setSegment_branches (s : State) (z : SegId) (x : SegmentRecord) : (s.setSegment z x).branches = s.branches := rfl
@[simp] theorem State.setSegment_scanner (s : State) (z : SegId) (x : SegmentRecord) : (s.setSegment z x).scanner = s.scanner := rfl
@[simp] theorem State.setSegment_measured (s : State) (z : SegId) (x : SegmentRecord) : (s.setSegment z x).measured = s.measured := rfl
@[simp] theorem State.setSegment_head (s : State) (z : SegId) (x : SegmentRecord) : (s.setSegment z x).head = s.head := rfl
@[simp] theorem State.setSegment_planPending (s : State) (z : SegId) (x : SegmentRecord) : (s.setSegment z x).planPending = s.planPending := rfl
@[simp] theorem State.setSegment_planActive (s : State) (z : SegId) (x : SegmentRecord) : (s.setSegment z x).planActive = s.planActive := rfl
@[simp] theorem State.setSegment_freeze (s : State) (z : SegId) (x : SegmentRecord) : (s.setSegment z x).freeze = s.freeze := rfl
@[simp] theorem State.setSegment_timer (s : State) (z : SegId) (x : SegmentRecord) : (s.setSegment z x).timer = s.timer := rfl
@[simp] theorem State.setSegment_summary (s : State) (z : SegId) (x : SegmentRecord) : (s.setSegment z x).summary = s.summary := rfl
@[simp] theorem State.setSegment_leases (s : State) (z : SegId) (x : SegmentRecord) : (s.setSegment z x).leases = s.leases := rfl
@[simp] theorem State.setSegment_handover (s : State) (z : SegId) (x : SegmentRecord) : (s.setSegment z x).handover = s.handover := rfl
@[simp] theorem State.setSegment_feeds (s : State) (z : SegId) (x : SegmentRecord) : (s.setSegment z x).feeds = s.feeds := rfl
@[simp] theorem State.setSegment_activeFeed (s : State) (z : SegId) (x : SegmentRecord) : (s.setSegment z x).activeFeed = s.activeFeed := rfl
@[simp] theorem State.setSegment_switch (s : State) (z : SegId) (x : SegmentRecord) : (s.setSegment z x).switch = s.switch := rfl
@[simp] theorem State.setSegment_startup (s : State) (z : SegId) (x : SegmentRecord) : (s.setSegment z x).startup = s.startup := rfl
@[simp] theorem State.setSegment_bothOpen (s : State) (z : SegId) (x : SegmentRecord) : (s.setSegment z x).bothOpen = s.bothOpen := rfl
@[simp] theorem State.setSegment_feedLock (s : State) (z : SegId) (x : SegmentRecord) : (s.setSegment z x).feedLock = s.feedLock := rfl
@[simp] theorem State.setSegment_drips (s : State) (z : SegId) (x : SegmentRecord) : (s.setSegment z x).drips = s.drips := rfl
@[simp] theorem State.setSegment_zones (s : State) (z : SegId) (x : SegmentRecord) : (s.setSegment z x).zones = s.zones := rfl
@[simp] theorem State.setSegment_mode (s : State) (z : SegId) (x : SegmentRecord) : (s.setSegment z x).mode = s.mode := rfl
@[simp] theorem State.setSegment_faultHold (s : State) (z : SegId) (x : SegmentRecord) : (s.setSegment z x).faultHold = s.faultHold := rfl
@[simp] theorem State.setSegment_park (s : State) (z : SegId) (x : SegmentRecord) : (s.setSegment z x).park = s.park := rfl
@[simp] theorem State.setSegment_incidents (s : State) (z : SegId) (x : SegmentRecord) : (s.setSegment z x).incidents = s.incidents := rfl
@[simp] theorem State.setSegment_store (s : State) (z : SegId) (x : SegmentRecord) : (s.setSegment z x).store = s.store := rfl
@[simp] theorem State.setSegment_params (s : State) (z : SegId) (x : SegmentRecord) : (s.setSegment z x).params = s.params := rfl
@[simp] theorem State.setSegment_eeprom (s : State) (z : SegId) (x : SegmentRecord) : (s.setSegment z x).eeprom = s.eeprom := rfl
@[simp] theorem State.setSegment_imageTorn (s : State) (z : SegId) (x : SegmentRecord) : (s.setSegment z x).imageTorn = s.imageTorn := rfl
@[simp] theorem State.setSegment_draws (s : State) (z : SegId) (x : SegmentRecord) : (s.setSegment z x).draws = s.draws := rfl
@[simp] theorem State.setSegment_port (s : State) (z : SegId) (x : SegmentRecord) (p : Port) : (s.setSegment z x).port p = s.port p := rfl
@[simp] theorem State.setSegment_entry (s : State) (z : SegId) (x : SegmentRecord) (c : BranchId) : (s.setSegment z x).entry c = s.entry c := rfl
@[simp] theorem State.setSegment_branch (s : State) (z : SegId) (x : SegmentRecord) (c : BranchId) : (s.setSegment z x).branch c = s.branch c := rfl
@[simp] theorem State.setSegment_measure (s : State) (z : SegId) (x : SegmentRecord) (c : BranchId) : (s.setSegment z x).measure c = s.measure c := rfl
@[simp] theorem State.setSegment_pendingPlan (s : State) (z : SegId) (x : SegmentRecord) (c : BranchId) : (s.setSegment z x).pendingPlan c = s.pendingPlan c := rfl
@[simp] theorem State.setSegment_activePlan (s : State) (z : SegId) (x : SegmentRecord) (c : BranchId) : (s.setSegment z x).activePlan c = s.activePlan c := rfl
@[simp] theorem State.setSegment_lease (s : State) (z : SegId) (x : SegmentRecord) (g : Feed) : (s.setSegment z x).lease g = s.lease g := rfl
@[simp] theorem State.setSegment_feed (s : State) (z : SegId) (x : SegmentRecord) (g : Feed) : (s.setSegment z x).feed g = s.feed g := rfl
@[simp] theorem State.setSegment_drip (s : State) (z : SegId) (x : SegmentRecord) (c : BranchId) : (s.setSegment z x).drip c = s.drip c := rfl
@[simp] theorem State.setSegment_zone (s : State) (z : SegId) (x : SegmentRecord) (c : SegId) : (s.setSegment z x).zone c = s.zone c := rfl
@[simp] theorem State.setSegment_uptime (s : State) (z : SegId) (x : SegmentRecord) : (s.setSegment z x).uptime = s.uptime := rfl
@[simp] theorem State.setSegment_running (s : State) (z : SegId) (x : SegmentRecord) : (s.setSegment z x).running = s.running := rfl
@[simp] theorem State.setSegment_held (s : State) (z : SegId) (x : SegmentRecord) : (s.setSegment z x).held = s.held := rfl

/-! ### State.setPendingPlan -/

@[simp] theorem State.setPendingPlan_pending (s : State) (b : BranchId) (x : PlanEntry) : (s.setPendingPlan b x).pending = s.pending := rfl
@[simp] theorem State.setPendingPlan_clock (s : State) (b : BranchId) (x : PlanEntry) : (s.setPendingPlan b x).clock = s.clock := rfl
@[simp] theorem State.setPendingPlan_loading (s : State) (b : BranchId) (x : PlanEntry) : (s.setPendingPlan b x).loading = s.loading := rfl
@[simp] theorem State.setPendingPlan_resetLow (s : State) (b : BranchId) (x : PlanEntry) : (s.setPendingPlan b x).resetLow = s.resetLow := rfl
@[simp] theorem State.setPendingPlan_restartDue (s : State) (b : BranchId) (x : PlanEntry) : (s.setPendingPlan b x).restartDue = s.restartDue := rfl
@[simp] theorem State.setPendingPlan_saveAborted (s : State) (b : BranchId) (x : PlanEntry) : (s.setPendingPlan b x).saveAborted = s.saveAborted := rfl
@[simp] theorem State.setPendingPlan_ports (s : State) (b : BranchId) (x : PlanEntry) : (s.setPendingPlan b x).ports = s.ports := rfl
@[simp] theorem State.setPendingPlan_map (s : State) (b : BranchId) (x : PlanEntry) : (s.setPendingPlan b x).map = s.map := rfl
@[simp] theorem State.setPendingPlan_branches (s : State) (b : BranchId) (x : PlanEntry) : (s.setPendingPlan b x).branches = s.branches := rfl
@[simp] theorem State.setPendingPlan_scanner (s : State) (b : BranchId) (x : PlanEntry) : (s.setPendingPlan b x).scanner = s.scanner := rfl
@[simp] theorem State.setPendingPlan_measured (s : State) (b : BranchId) (x : PlanEntry) : (s.setPendingPlan b x).measured = s.measured := rfl
@[simp] theorem State.setPendingPlan_segments (s : State) (b : BranchId) (x : PlanEntry) : (s.setPendingPlan b x).segments = s.segments := rfl
@[simp] theorem State.setPendingPlan_head (s : State) (b : BranchId) (x : PlanEntry) : (s.setPendingPlan b x).head = s.head := rfl
@[simp] theorem State.setPendingPlan_planActive (s : State) (b : BranchId) (x : PlanEntry) : (s.setPendingPlan b x).planActive = s.planActive := rfl
@[simp] theorem State.setPendingPlan_freeze (s : State) (b : BranchId) (x : PlanEntry) : (s.setPendingPlan b x).freeze = s.freeze := rfl
@[simp] theorem State.setPendingPlan_timer (s : State) (b : BranchId) (x : PlanEntry) : (s.setPendingPlan b x).timer = s.timer := rfl
@[simp] theorem State.setPendingPlan_summary (s : State) (b : BranchId) (x : PlanEntry) : (s.setPendingPlan b x).summary = s.summary := rfl
@[simp] theorem State.setPendingPlan_leases (s : State) (b : BranchId) (x : PlanEntry) : (s.setPendingPlan b x).leases = s.leases := rfl
@[simp] theorem State.setPendingPlan_handover (s : State) (b : BranchId) (x : PlanEntry) : (s.setPendingPlan b x).handover = s.handover := rfl
@[simp] theorem State.setPendingPlan_feeds (s : State) (b : BranchId) (x : PlanEntry) : (s.setPendingPlan b x).feeds = s.feeds := rfl
@[simp] theorem State.setPendingPlan_activeFeed (s : State) (b : BranchId) (x : PlanEntry) : (s.setPendingPlan b x).activeFeed = s.activeFeed := rfl
@[simp] theorem State.setPendingPlan_switch (s : State) (b : BranchId) (x : PlanEntry) : (s.setPendingPlan b x).switch = s.switch := rfl
@[simp] theorem State.setPendingPlan_startup (s : State) (b : BranchId) (x : PlanEntry) : (s.setPendingPlan b x).startup = s.startup := rfl
@[simp] theorem State.setPendingPlan_bothOpen (s : State) (b : BranchId) (x : PlanEntry) : (s.setPendingPlan b x).bothOpen = s.bothOpen := rfl
@[simp] theorem State.setPendingPlan_feedLock (s : State) (b : BranchId) (x : PlanEntry) : (s.setPendingPlan b x).feedLock = s.feedLock := rfl
@[simp] theorem State.setPendingPlan_drips (s : State) (b : BranchId) (x : PlanEntry) : (s.setPendingPlan b x).drips = s.drips := rfl
@[simp] theorem State.setPendingPlan_zones (s : State) (b : BranchId) (x : PlanEntry) : (s.setPendingPlan b x).zones = s.zones := rfl
@[simp] theorem State.setPendingPlan_mode (s : State) (b : BranchId) (x : PlanEntry) : (s.setPendingPlan b x).mode = s.mode := rfl
@[simp] theorem State.setPendingPlan_faultHold (s : State) (b : BranchId) (x : PlanEntry) : (s.setPendingPlan b x).faultHold = s.faultHold := rfl
@[simp] theorem State.setPendingPlan_park (s : State) (b : BranchId) (x : PlanEntry) : (s.setPendingPlan b x).park = s.park := rfl
@[simp] theorem State.setPendingPlan_incidents (s : State) (b : BranchId) (x : PlanEntry) : (s.setPendingPlan b x).incidents = s.incidents := rfl
@[simp] theorem State.setPendingPlan_store (s : State) (b : BranchId) (x : PlanEntry) : (s.setPendingPlan b x).store = s.store := rfl
@[simp] theorem State.setPendingPlan_params (s : State) (b : BranchId) (x : PlanEntry) : (s.setPendingPlan b x).params = s.params := rfl
@[simp] theorem State.setPendingPlan_eeprom (s : State) (b : BranchId) (x : PlanEntry) : (s.setPendingPlan b x).eeprom = s.eeprom := rfl
@[simp] theorem State.setPendingPlan_imageTorn (s : State) (b : BranchId) (x : PlanEntry) : (s.setPendingPlan b x).imageTorn = s.imageTorn := rfl
@[simp] theorem State.setPendingPlan_draws (s : State) (b : BranchId) (x : PlanEntry) : (s.setPendingPlan b x).draws = s.draws := rfl
@[simp] theorem State.setPendingPlan_port (s : State) (b : BranchId) (x : PlanEntry) (p : Port) : (s.setPendingPlan b x).port p = s.port p := rfl
@[simp] theorem State.setPendingPlan_entry (s : State) (b : BranchId) (x : PlanEntry) (c : BranchId) : (s.setPendingPlan b x).entry c = s.entry c := rfl
@[simp] theorem State.setPendingPlan_branch (s : State) (b : BranchId) (x : PlanEntry) (c : BranchId) : (s.setPendingPlan b x).branch c = s.branch c := rfl
@[simp] theorem State.setPendingPlan_measure (s : State) (b : BranchId) (x : PlanEntry) (c : BranchId) : (s.setPendingPlan b x).measure c = s.measure c := rfl
@[simp] theorem State.setPendingPlan_segment (s : State) (b : BranchId) (x : PlanEntry) (c : SegId) : (s.setPendingPlan b x).segment c = s.segment c := rfl
@[simp] theorem State.setPendingPlan_activePlan (s : State) (b : BranchId) (x : PlanEntry) (c : BranchId) : (s.setPendingPlan b x).activePlan c = s.activePlan c := rfl
@[simp] theorem State.setPendingPlan_lease (s : State) (b : BranchId) (x : PlanEntry) (g : Feed) : (s.setPendingPlan b x).lease g = s.lease g := rfl
@[simp] theorem State.setPendingPlan_feed (s : State) (b : BranchId) (x : PlanEntry) (g : Feed) : (s.setPendingPlan b x).feed g = s.feed g := rfl
@[simp] theorem State.setPendingPlan_drip (s : State) (b : BranchId) (x : PlanEntry) (c : BranchId) : (s.setPendingPlan b x).drip c = s.drip c := rfl
@[simp] theorem State.setPendingPlan_zone (s : State) (b : BranchId) (x : PlanEntry) (c : SegId) : (s.setPendingPlan b x).zone c = s.zone c := rfl
@[simp] theorem State.setPendingPlan_uptime (s : State) (b : BranchId) (x : PlanEntry) : (s.setPendingPlan b x).uptime = s.uptime := rfl
@[simp] theorem State.setPendingPlan_running (s : State) (b : BranchId) (x : PlanEntry) : (s.setPendingPlan b x).running = s.running := rfl
@[simp] theorem State.setPendingPlan_held (s : State) (b : BranchId) (x : PlanEntry) : (s.setPendingPlan b x).held = s.held := rfl

/-! ### State.setLease -/

@[simp] theorem State.setLease_pending (s : State) (f : Feed) (x : Option Lease) : (s.setLease f x).pending = s.pending := rfl
@[simp] theorem State.setLease_clock (s : State) (f : Feed) (x : Option Lease) : (s.setLease f x).clock = s.clock := rfl
@[simp] theorem State.setLease_loading (s : State) (f : Feed) (x : Option Lease) : (s.setLease f x).loading = s.loading := rfl
@[simp] theorem State.setLease_resetLow (s : State) (f : Feed) (x : Option Lease) : (s.setLease f x).resetLow = s.resetLow := rfl
@[simp] theorem State.setLease_restartDue (s : State) (f : Feed) (x : Option Lease) : (s.setLease f x).restartDue = s.restartDue := rfl
@[simp] theorem State.setLease_saveAborted (s : State) (f : Feed) (x : Option Lease) : (s.setLease f x).saveAborted = s.saveAborted := rfl
@[simp] theorem State.setLease_ports (s : State) (f : Feed) (x : Option Lease) : (s.setLease f x).ports = s.ports := rfl
@[simp] theorem State.setLease_map (s : State) (f : Feed) (x : Option Lease) : (s.setLease f x).map = s.map := rfl
@[simp] theorem State.setLease_branches (s : State) (f : Feed) (x : Option Lease) : (s.setLease f x).branches = s.branches := rfl
@[simp] theorem State.setLease_scanner (s : State) (f : Feed) (x : Option Lease) : (s.setLease f x).scanner = s.scanner := rfl
@[simp] theorem State.setLease_measured (s : State) (f : Feed) (x : Option Lease) : (s.setLease f x).measured = s.measured := rfl
@[simp] theorem State.setLease_segments (s : State) (f : Feed) (x : Option Lease) : (s.setLease f x).segments = s.segments := rfl
@[simp] theorem State.setLease_head (s : State) (f : Feed) (x : Option Lease) : (s.setLease f x).head = s.head := rfl
@[simp] theorem State.setLease_planPending (s : State) (f : Feed) (x : Option Lease) : (s.setLease f x).planPending = s.planPending := rfl
@[simp] theorem State.setLease_planActive (s : State) (f : Feed) (x : Option Lease) : (s.setLease f x).planActive = s.planActive := rfl
@[simp] theorem State.setLease_freeze (s : State) (f : Feed) (x : Option Lease) : (s.setLease f x).freeze = s.freeze := rfl
@[simp] theorem State.setLease_timer (s : State) (f : Feed) (x : Option Lease) : (s.setLease f x).timer = s.timer := rfl
@[simp] theorem State.setLease_summary (s : State) (f : Feed) (x : Option Lease) : (s.setLease f x).summary = s.summary := rfl
@[simp] theorem State.setLease_handover (s : State) (f : Feed) (x : Option Lease) : (s.setLease f x).handover = s.handover := rfl
@[simp] theorem State.setLease_feeds (s : State) (f : Feed) (x : Option Lease) : (s.setLease f x).feeds = s.feeds := rfl
@[simp] theorem State.setLease_activeFeed (s : State) (f : Feed) (x : Option Lease) : (s.setLease f x).activeFeed = s.activeFeed := rfl
@[simp] theorem State.setLease_switch (s : State) (f : Feed) (x : Option Lease) : (s.setLease f x).switch = s.switch := rfl
@[simp] theorem State.setLease_startup (s : State) (f : Feed) (x : Option Lease) : (s.setLease f x).startup = s.startup := rfl
@[simp] theorem State.setLease_bothOpen (s : State) (f : Feed) (x : Option Lease) : (s.setLease f x).bothOpen = s.bothOpen := rfl
@[simp] theorem State.setLease_feedLock (s : State) (f : Feed) (x : Option Lease) : (s.setLease f x).feedLock = s.feedLock := rfl
@[simp] theorem State.setLease_drips (s : State) (f : Feed) (x : Option Lease) : (s.setLease f x).drips = s.drips := rfl
@[simp] theorem State.setLease_zones (s : State) (f : Feed) (x : Option Lease) : (s.setLease f x).zones = s.zones := rfl
@[simp] theorem State.setLease_mode (s : State) (f : Feed) (x : Option Lease) : (s.setLease f x).mode = s.mode := rfl
@[simp] theorem State.setLease_faultHold (s : State) (f : Feed) (x : Option Lease) : (s.setLease f x).faultHold = s.faultHold := rfl
@[simp] theorem State.setLease_park (s : State) (f : Feed) (x : Option Lease) : (s.setLease f x).park = s.park := rfl
@[simp] theorem State.setLease_incidents (s : State) (f : Feed) (x : Option Lease) : (s.setLease f x).incidents = s.incidents := rfl
@[simp] theorem State.setLease_store (s : State) (f : Feed) (x : Option Lease) : (s.setLease f x).store = s.store := rfl
@[simp] theorem State.setLease_params (s : State) (f : Feed) (x : Option Lease) : (s.setLease f x).params = s.params := rfl
@[simp] theorem State.setLease_eeprom (s : State) (f : Feed) (x : Option Lease) : (s.setLease f x).eeprom = s.eeprom := rfl
@[simp] theorem State.setLease_imageTorn (s : State) (f : Feed) (x : Option Lease) : (s.setLease f x).imageTorn = s.imageTorn := rfl
@[simp] theorem State.setLease_draws (s : State) (f : Feed) (x : Option Lease) : (s.setLease f x).draws = s.draws := rfl
@[simp] theorem State.setLease_port (s : State) (f : Feed) (x : Option Lease) (p : Port) : (s.setLease f x).port p = s.port p := rfl
@[simp] theorem State.setLease_entry (s : State) (f : Feed) (x : Option Lease) (c : BranchId) : (s.setLease f x).entry c = s.entry c := rfl
@[simp] theorem State.setLease_branch (s : State) (f : Feed) (x : Option Lease) (c : BranchId) : (s.setLease f x).branch c = s.branch c := rfl
@[simp] theorem State.setLease_measure (s : State) (f : Feed) (x : Option Lease) (c : BranchId) : (s.setLease f x).measure c = s.measure c := rfl
@[simp] theorem State.setLease_segment (s : State) (f : Feed) (x : Option Lease) (c : SegId) : (s.setLease f x).segment c = s.segment c := rfl
@[simp] theorem State.setLease_pendingPlan (s : State) (f : Feed) (x : Option Lease) (c : BranchId) : (s.setLease f x).pendingPlan c = s.pendingPlan c := rfl
@[simp] theorem State.setLease_activePlan (s : State) (f : Feed) (x : Option Lease) (c : BranchId) : (s.setLease f x).activePlan c = s.activePlan c := rfl
@[simp] theorem State.setLease_feed (s : State) (f : Feed) (x : Option Lease) (g : Feed) : (s.setLease f x).feed g = s.feed g := rfl
@[simp] theorem State.setLease_drip (s : State) (f : Feed) (x : Option Lease) (c : BranchId) : (s.setLease f x).drip c = s.drip c := rfl
@[simp] theorem State.setLease_zone (s : State) (f : Feed) (x : Option Lease) (c : SegId) : (s.setLease f x).zone c = s.zone c := rfl
@[simp] theorem State.setLease_uptime (s : State) (f : Feed) (x : Option Lease) : (s.setLease f x).uptime = s.uptime := rfl
@[simp] theorem State.setLease_running (s : State) (f : Feed) (x : Option Lease) : (s.setLease f x).running = s.running := rfl
@[simp] theorem State.setLease_held (s : State) (f : Feed) (x : Option Lease) : (s.setLease f x).held = s.held := rfl

/-! ### State.setFeed -/

@[simp] theorem State.setFeed_pending (s : State) (f : Feed) (x : FeedRecord) : (s.setFeed f x).pending = s.pending := rfl
@[simp] theorem State.setFeed_clock (s : State) (f : Feed) (x : FeedRecord) : (s.setFeed f x).clock = s.clock := rfl
@[simp] theorem State.setFeed_loading (s : State) (f : Feed) (x : FeedRecord) : (s.setFeed f x).loading = s.loading := rfl
@[simp] theorem State.setFeed_resetLow (s : State) (f : Feed) (x : FeedRecord) : (s.setFeed f x).resetLow = s.resetLow := rfl
@[simp] theorem State.setFeed_restartDue (s : State) (f : Feed) (x : FeedRecord) : (s.setFeed f x).restartDue = s.restartDue := rfl
@[simp] theorem State.setFeed_saveAborted (s : State) (f : Feed) (x : FeedRecord) : (s.setFeed f x).saveAborted = s.saveAborted := rfl
@[simp] theorem State.setFeed_ports (s : State) (f : Feed) (x : FeedRecord) : (s.setFeed f x).ports = s.ports := rfl
@[simp] theorem State.setFeed_map (s : State) (f : Feed) (x : FeedRecord) : (s.setFeed f x).map = s.map := rfl
@[simp] theorem State.setFeed_branches (s : State) (f : Feed) (x : FeedRecord) : (s.setFeed f x).branches = s.branches := rfl
@[simp] theorem State.setFeed_scanner (s : State) (f : Feed) (x : FeedRecord) : (s.setFeed f x).scanner = s.scanner := rfl
@[simp] theorem State.setFeed_measured (s : State) (f : Feed) (x : FeedRecord) : (s.setFeed f x).measured = s.measured := rfl
@[simp] theorem State.setFeed_segments (s : State) (f : Feed) (x : FeedRecord) : (s.setFeed f x).segments = s.segments := rfl
@[simp] theorem State.setFeed_head (s : State) (f : Feed) (x : FeedRecord) : (s.setFeed f x).head = s.head := rfl
@[simp] theorem State.setFeed_planPending (s : State) (f : Feed) (x : FeedRecord) : (s.setFeed f x).planPending = s.planPending := rfl
@[simp] theorem State.setFeed_planActive (s : State) (f : Feed) (x : FeedRecord) : (s.setFeed f x).planActive = s.planActive := rfl
@[simp] theorem State.setFeed_freeze (s : State) (f : Feed) (x : FeedRecord) : (s.setFeed f x).freeze = s.freeze := rfl
@[simp] theorem State.setFeed_timer (s : State) (f : Feed) (x : FeedRecord) : (s.setFeed f x).timer = s.timer := rfl
@[simp] theorem State.setFeed_summary (s : State) (f : Feed) (x : FeedRecord) : (s.setFeed f x).summary = s.summary := rfl
@[simp] theorem State.setFeed_leases (s : State) (f : Feed) (x : FeedRecord) : (s.setFeed f x).leases = s.leases := rfl
@[simp] theorem State.setFeed_handover (s : State) (f : Feed) (x : FeedRecord) : (s.setFeed f x).handover = s.handover := rfl
@[simp] theorem State.setFeed_activeFeed (s : State) (f : Feed) (x : FeedRecord) : (s.setFeed f x).activeFeed = s.activeFeed := rfl
@[simp] theorem State.setFeed_switch (s : State) (f : Feed) (x : FeedRecord) : (s.setFeed f x).switch = s.switch := rfl
@[simp] theorem State.setFeed_startup (s : State) (f : Feed) (x : FeedRecord) : (s.setFeed f x).startup = s.startup := rfl
@[simp] theorem State.setFeed_bothOpen (s : State) (f : Feed) (x : FeedRecord) : (s.setFeed f x).bothOpen = s.bothOpen := rfl
@[simp] theorem State.setFeed_feedLock (s : State) (f : Feed) (x : FeedRecord) : (s.setFeed f x).feedLock = s.feedLock := rfl
@[simp] theorem State.setFeed_drips (s : State) (f : Feed) (x : FeedRecord) : (s.setFeed f x).drips = s.drips := rfl
@[simp] theorem State.setFeed_zones (s : State) (f : Feed) (x : FeedRecord) : (s.setFeed f x).zones = s.zones := rfl
@[simp] theorem State.setFeed_mode (s : State) (f : Feed) (x : FeedRecord) : (s.setFeed f x).mode = s.mode := rfl
@[simp] theorem State.setFeed_faultHold (s : State) (f : Feed) (x : FeedRecord) : (s.setFeed f x).faultHold = s.faultHold := rfl
@[simp] theorem State.setFeed_park (s : State) (f : Feed) (x : FeedRecord) : (s.setFeed f x).park = s.park := rfl
@[simp] theorem State.setFeed_incidents (s : State) (f : Feed) (x : FeedRecord) : (s.setFeed f x).incidents = s.incidents := rfl
@[simp] theorem State.setFeed_store (s : State) (f : Feed) (x : FeedRecord) : (s.setFeed f x).store = s.store := rfl
@[simp] theorem State.setFeed_params (s : State) (f : Feed) (x : FeedRecord) : (s.setFeed f x).params = s.params := rfl
@[simp] theorem State.setFeed_eeprom (s : State) (f : Feed) (x : FeedRecord) : (s.setFeed f x).eeprom = s.eeprom := rfl
@[simp] theorem State.setFeed_imageTorn (s : State) (f : Feed) (x : FeedRecord) : (s.setFeed f x).imageTorn = s.imageTorn := rfl
@[simp] theorem State.setFeed_draws (s : State) (f : Feed) (x : FeedRecord) : (s.setFeed f x).draws = s.draws := rfl
@[simp] theorem State.setFeed_port (s : State) (f : Feed) (x : FeedRecord) (p : Port) : (s.setFeed f x).port p = s.port p := rfl
@[simp] theorem State.setFeed_entry (s : State) (f : Feed) (x : FeedRecord) (c : BranchId) : (s.setFeed f x).entry c = s.entry c := rfl
@[simp] theorem State.setFeed_branch (s : State) (f : Feed) (x : FeedRecord) (c : BranchId) : (s.setFeed f x).branch c = s.branch c := rfl
@[simp] theorem State.setFeed_measure (s : State) (f : Feed) (x : FeedRecord) (c : BranchId) : (s.setFeed f x).measure c = s.measure c := rfl
@[simp] theorem State.setFeed_segment (s : State) (f : Feed) (x : FeedRecord) (c : SegId) : (s.setFeed f x).segment c = s.segment c := rfl
@[simp] theorem State.setFeed_pendingPlan (s : State) (f : Feed) (x : FeedRecord) (c : BranchId) : (s.setFeed f x).pendingPlan c = s.pendingPlan c := rfl
@[simp] theorem State.setFeed_activePlan (s : State) (f : Feed) (x : FeedRecord) (c : BranchId) : (s.setFeed f x).activePlan c = s.activePlan c := rfl
@[simp] theorem State.setFeed_lease (s : State) (f : Feed) (x : FeedRecord) (g : Feed) : (s.setFeed f x).lease g = s.lease g := rfl
@[simp] theorem State.setFeed_drip (s : State) (f : Feed) (x : FeedRecord) (c : BranchId) : (s.setFeed f x).drip c = s.drip c := rfl
@[simp] theorem State.setFeed_zone (s : State) (f : Feed) (x : FeedRecord) (c : SegId) : (s.setFeed f x).zone c = s.zone c := rfl
@[simp] theorem State.setFeed_uptime (s : State) (f : Feed) (x : FeedRecord) : (s.setFeed f x).uptime = s.uptime := rfl
@[simp] theorem State.setFeed_running (s : State) (f : Feed) (x : FeedRecord) : (s.setFeed f x).running = s.running := rfl
@[simp] theorem State.setFeed_held (s : State) (f : Feed) (x : FeedRecord) : (s.setFeed f x).held = s.held := rfl

/-! ### State.setDrip -/

@[simp] theorem State.setDrip_pending (s : State) (b : BranchId) (x : Accumulator) : (s.setDrip b x).pending = s.pending := rfl
@[simp] theorem State.setDrip_clock (s : State) (b : BranchId) (x : Accumulator) : (s.setDrip b x).clock = s.clock := rfl
@[simp] theorem State.setDrip_loading (s : State) (b : BranchId) (x : Accumulator) : (s.setDrip b x).loading = s.loading := rfl
@[simp] theorem State.setDrip_resetLow (s : State) (b : BranchId) (x : Accumulator) : (s.setDrip b x).resetLow = s.resetLow := rfl
@[simp] theorem State.setDrip_restartDue (s : State) (b : BranchId) (x : Accumulator) : (s.setDrip b x).restartDue = s.restartDue := rfl
@[simp] theorem State.setDrip_saveAborted (s : State) (b : BranchId) (x : Accumulator) : (s.setDrip b x).saveAborted = s.saveAborted := rfl
@[simp] theorem State.setDrip_ports (s : State) (b : BranchId) (x : Accumulator) : (s.setDrip b x).ports = s.ports := rfl
@[simp] theorem State.setDrip_map (s : State) (b : BranchId) (x : Accumulator) : (s.setDrip b x).map = s.map := rfl
@[simp] theorem State.setDrip_branches (s : State) (b : BranchId) (x : Accumulator) : (s.setDrip b x).branches = s.branches := rfl
@[simp] theorem State.setDrip_scanner (s : State) (b : BranchId) (x : Accumulator) : (s.setDrip b x).scanner = s.scanner := rfl
@[simp] theorem State.setDrip_measured (s : State) (b : BranchId) (x : Accumulator) : (s.setDrip b x).measured = s.measured := rfl
@[simp] theorem State.setDrip_segments (s : State) (b : BranchId) (x : Accumulator) : (s.setDrip b x).segments = s.segments := rfl
@[simp] theorem State.setDrip_head (s : State) (b : BranchId) (x : Accumulator) : (s.setDrip b x).head = s.head := rfl
@[simp] theorem State.setDrip_planPending (s : State) (b : BranchId) (x : Accumulator) : (s.setDrip b x).planPending = s.planPending := rfl
@[simp] theorem State.setDrip_planActive (s : State) (b : BranchId) (x : Accumulator) : (s.setDrip b x).planActive = s.planActive := rfl
@[simp] theorem State.setDrip_freeze (s : State) (b : BranchId) (x : Accumulator) : (s.setDrip b x).freeze = s.freeze := rfl
@[simp] theorem State.setDrip_timer (s : State) (b : BranchId) (x : Accumulator) : (s.setDrip b x).timer = s.timer := rfl
@[simp] theorem State.setDrip_summary (s : State) (b : BranchId) (x : Accumulator) : (s.setDrip b x).summary = s.summary := rfl
@[simp] theorem State.setDrip_leases (s : State) (b : BranchId) (x : Accumulator) : (s.setDrip b x).leases = s.leases := rfl
@[simp] theorem State.setDrip_handover (s : State) (b : BranchId) (x : Accumulator) : (s.setDrip b x).handover = s.handover := rfl
@[simp] theorem State.setDrip_feeds (s : State) (b : BranchId) (x : Accumulator) : (s.setDrip b x).feeds = s.feeds := rfl
@[simp] theorem State.setDrip_activeFeed (s : State) (b : BranchId) (x : Accumulator) : (s.setDrip b x).activeFeed = s.activeFeed := rfl
@[simp] theorem State.setDrip_switch (s : State) (b : BranchId) (x : Accumulator) : (s.setDrip b x).switch = s.switch := rfl
@[simp] theorem State.setDrip_startup (s : State) (b : BranchId) (x : Accumulator) : (s.setDrip b x).startup = s.startup := rfl
@[simp] theorem State.setDrip_bothOpen (s : State) (b : BranchId) (x : Accumulator) : (s.setDrip b x).bothOpen = s.bothOpen := rfl
@[simp] theorem State.setDrip_feedLock (s : State) (b : BranchId) (x : Accumulator) : (s.setDrip b x).feedLock = s.feedLock := rfl
@[simp] theorem State.setDrip_zones (s : State) (b : BranchId) (x : Accumulator) : (s.setDrip b x).zones = s.zones := rfl
@[simp] theorem State.setDrip_mode (s : State) (b : BranchId) (x : Accumulator) : (s.setDrip b x).mode = s.mode := rfl
@[simp] theorem State.setDrip_faultHold (s : State) (b : BranchId) (x : Accumulator) : (s.setDrip b x).faultHold = s.faultHold := rfl
@[simp] theorem State.setDrip_park (s : State) (b : BranchId) (x : Accumulator) : (s.setDrip b x).park = s.park := rfl
@[simp] theorem State.setDrip_incidents (s : State) (b : BranchId) (x : Accumulator) : (s.setDrip b x).incidents = s.incidents := rfl
@[simp] theorem State.setDrip_store (s : State) (b : BranchId) (x : Accumulator) : (s.setDrip b x).store = s.store := rfl
@[simp] theorem State.setDrip_params (s : State) (b : BranchId) (x : Accumulator) : (s.setDrip b x).params = s.params := rfl
@[simp] theorem State.setDrip_eeprom (s : State) (b : BranchId) (x : Accumulator) : (s.setDrip b x).eeprom = s.eeprom := rfl
@[simp] theorem State.setDrip_imageTorn (s : State) (b : BranchId) (x : Accumulator) : (s.setDrip b x).imageTorn = s.imageTorn := rfl
@[simp] theorem State.setDrip_draws (s : State) (b : BranchId) (x : Accumulator) : (s.setDrip b x).draws = s.draws := rfl
@[simp] theorem State.setDrip_port (s : State) (b : BranchId) (x : Accumulator) (p : Port) : (s.setDrip b x).port p = s.port p := rfl
@[simp] theorem State.setDrip_entry (s : State) (b : BranchId) (x : Accumulator) (c : BranchId) : (s.setDrip b x).entry c = s.entry c := rfl
@[simp] theorem State.setDrip_branch (s : State) (b : BranchId) (x : Accumulator) (c : BranchId) : (s.setDrip b x).branch c = s.branch c := rfl
@[simp] theorem State.setDrip_measure (s : State) (b : BranchId) (x : Accumulator) (c : BranchId) : (s.setDrip b x).measure c = s.measure c := rfl
@[simp] theorem State.setDrip_segment (s : State) (b : BranchId) (x : Accumulator) (c : SegId) : (s.setDrip b x).segment c = s.segment c := rfl
@[simp] theorem State.setDrip_pendingPlan (s : State) (b : BranchId) (x : Accumulator) (c : BranchId) : (s.setDrip b x).pendingPlan c = s.pendingPlan c := rfl
@[simp] theorem State.setDrip_activePlan (s : State) (b : BranchId) (x : Accumulator) (c : BranchId) : (s.setDrip b x).activePlan c = s.activePlan c := rfl
@[simp] theorem State.setDrip_lease (s : State) (b : BranchId) (x : Accumulator) (g : Feed) : (s.setDrip b x).lease g = s.lease g := rfl
@[simp] theorem State.setDrip_feed (s : State) (b : BranchId) (x : Accumulator) (g : Feed) : (s.setDrip b x).feed g = s.feed g := rfl
@[simp] theorem State.setDrip_zone (s : State) (b : BranchId) (x : Accumulator) (c : SegId) : (s.setDrip b x).zone c = s.zone c := rfl
@[simp] theorem State.setDrip_uptime (s : State) (b : BranchId) (x : Accumulator) : (s.setDrip b x).uptime = s.uptime := rfl
@[simp] theorem State.setDrip_running (s : State) (b : BranchId) (x : Accumulator) : (s.setDrip b x).running = s.running := rfl
@[simp] theorem State.setDrip_held (s : State) (b : BranchId) (x : Accumulator) : (s.setDrip b x).held = s.held := rfl

/-! ### State.setZone -/

@[simp] theorem State.setZone_pending (s : State) (z : SegId) (x : Zone) : (s.setZone z x).pending = s.pending := rfl
@[simp] theorem State.setZone_clock (s : State) (z : SegId) (x : Zone) : (s.setZone z x).clock = s.clock := rfl
@[simp] theorem State.setZone_loading (s : State) (z : SegId) (x : Zone) : (s.setZone z x).loading = s.loading := rfl
@[simp] theorem State.setZone_resetLow (s : State) (z : SegId) (x : Zone) : (s.setZone z x).resetLow = s.resetLow := rfl
@[simp] theorem State.setZone_restartDue (s : State) (z : SegId) (x : Zone) : (s.setZone z x).restartDue = s.restartDue := rfl
@[simp] theorem State.setZone_saveAborted (s : State) (z : SegId) (x : Zone) : (s.setZone z x).saveAborted = s.saveAborted := rfl
@[simp] theorem State.setZone_ports (s : State) (z : SegId) (x : Zone) : (s.setZone z x).ports = s.ports := rfl
@[simp] theorem State.setZone_map (s : State) (z : SegId) (x : Zone) : (s.setZone z x).map = s.map := rfl
@[simp] theorem State.setZone_branches (s : State) (z : SegId) (x : Zone) : (s.setZone z x).branches = s.branches := rfl
@[simp] theorem State.setZone_scanner (s : State) (z : SegId) (x : Zone) : (s.setZone z x).scanner = s.scanner := rfl
@[simp] theorem State.setZone_measured (s : State) (z : SegId) (x : Zone) : (s.setZone z x).measured = s.measured := rfl
@[simp] theorem State.setZone_segments (s : State) (z : SegId) (x : Zone) : (s.setZone z x).segments = s.segments := rfl
@[simp] theorem State.setZone_head (s : State) (z : SegId) (x : Zone) : (s.setZone z x).head = s.head := rfl
@[simp] theorem State.setZone_planPending (s : State) (z : SegId) (x : Zone) : (s.setZone z x).planPending = s.planPending := rfl
@[simp] theorem State.setZone_planActive (s : State) (z : SegId) (x : Zone) : (s.setZone z x).planActive = s.planActive := rfl
@[simp] theorem State.setZone_freeze (s : State) (z : SegId) (x : Zone) : (s.setZone z x).freeze = s.freeze := rfl
@[simp] theorem State.setZone_timer (s : State) (z : SegId) (x : Zone) : (s.setZone z x).timer = s.timer := rfl
@[simp] theorem State.setZone_summary (s : State) (z : SegId) (x : Zone) : (s.setZone z x).summary = s.summary := rfl
@[simp] theorem State.setZone_leases (s : State) (z : SegId) (x : Zone) : (s.setZone z x).leases = s.leases := rfl
@[simp] theorem State.setZone_handover (s : State) (z : SegId) (x : Zone) : (s.setZone z x).handover = s.handover := rfl
@[simp] theorem State.setZone_feeds (s : State) (z : SegId) (x : Zone) : (s.setZone z x).feeds = s.feeds := rfl
@[simp] theorem State.setZone_activeFeed (s : State) (z : SegId) (x : Zone) : (s.setZone z x).activeFeed = s.activeFeed := rfl
@[simp] theorem State.setZone_switch (s : State) (z : SegId) (x : Zone) : (s.setZone z x).switch = s.switch := rfl
@[simp] theorem State.setZone_startup (s : State) (z : SegId) (x : Zone) : (s.setZone z x).startup = s.startup := rfl
@[simp] theorem State.setZone_bothOpen (s : State) (z : SegId) (x : Zone) : (s.setZone z x).bothOpen = s.bothOpen := rfl
@[simp] theorem State.setZone_feedLock (s : State) (z : SegId) (x : Zone) : (s.setZone z x).feedLock = s.feedLock := rfl
@[simp] theorem State.setZone_drips (s : State) (z : SegId) (x : Zone) : (s.setZone z x).drips = s.drips := rfl
@[simp] theorem State.setZone_mode (s : State) (z : SegId) (x : Zone) : (s.setZone z x).mode = s.mode := rfl
@[simp] theorem State.setZone_faultHold (s : State) (z : SegId) (x : Zone) : (s.setZone z x).faultHold = s.faultHold := rfl
@[simp] theorem State.setZone_park (s : State) (z : SegId) (x : Zone) : (s.setZone z x).park = s.park := rfl
@[simp] theorem State.setZone_incidents (s : State) (z : SegId) (x : Zone) : (s.setZone z x).incidents = s.incidents := rfl
@[simp] theorem State.setZone_store (s : State) (z : SegId) (x : Zone) : (s.setZone z x).store = s.store := rfl
@[simp] theorem State.setZone_params (s : State) (z : SegId) (x : Zone) : (s.setZone z x).params = s.params := rfl
@[simp] theorem State.setZone_eeprom (s : State) (z : SegId) (x : Zone) : (s.setZone z x).eeprom = s.eeprom := rfl
@[simp] theorem State.setZone_imageTorn (s : State) (z : SegId) (x : Zone) : (s.setZone z x).imageTorn = s.imageTorn := rfl
@[simp] theorem State.setZone_draws (s : State) (z : SegId) (x : Zone) : (s.setZone z x).draws = s.draws := rfl
@[simp] theorem State.setZone_port (s : State) (z : SegId) (x : Zone) (p : Port) : (s.setZone z x).port p = s.port p := rfl
@[simp] theorem State.setZone_entry (s : State) (z : SegId) (x : Zone) (c : BranchId) : (s.setZone z x).entry c = s.entry c := rfl
@[simp] theorem State.setZone_branch (s : State) (z : SegId) (x : Zone) (c : BranchId) : (s.setZone z x).branch c = s.branch c := rfl
@[simp] theorem State.setZone_measure (s : State) (z : SegId) (x : Zone) (c : BranchId) : (s.setZone z x).measure c = s.measure c := rfl
@[simp] theorem State.setZone_segment (s : State) (z : SegId) (x : Zone) (c : SegId) : (s.setZone z x).segment c = s.segment c := rfl
@[simp] theorem State.setZone_pendingPlan (s : State) (z : SegId) (x : Zone) (c : BranchId) : (s.setZone z x).pendingPlan c = s.pendingPlan c := rfl
@[simp] theorem State.setZone_activePlan (s : State) (z : SegId) (x : Zone) (c : BranchId) : (s.setZone z x).activePlan c = s.activePlan c := rfl
@[simp] theorem State.setZone_lease (s : State) (z : SegId) (x : Zone) (g : Feed) : (s.setZone z x).lease g = s.lease g := rfl
@[simp] theorem State.setZone_feed (s : State) (z : SegId) (x : Zone) (g : Feed) : (s.setZone z x).feed g = s.feed g := rfl
@[simp] theorem State.setZone_drip (s : State) (z : SegId) (x : Zone) (c : BranchId) : (s.setZone z x).drip c = s.drip c := rfl
@[simp] theorem State.setZone_uptime (s : State) (z : SegId) (x : Zone) : (s.setZone z x).uptime = s.uptime := rfl
@[simp] theorem State.setZone_running (s : State) (z : SegId) (x : Zone) : (s.setZone z x).running = s.running := rfl
@[simp] theorem State.setZone_held (s : State) (z : SegId) (x : Zone) : (s.setZone z x).held = s.held := rfl

/-! ### State.setInlet -/

@[simp] theorem State.setInlet_pending (s : State) (f : Feed) (v : Valve) : (s.setInlet f v).pending = s.pending := rfl
@[simp] theorem State.setInlet_clock (s : State) (f : Feed) (v : Valve) : (s.setInlet f v).clock = s.clock := rfl
@[simp] theorem State.setInlet_loading (s : State) (f : Feed) (v : Valve) : (s.setInlet f v).loading = s.loading := rfl
@[simp] theorem State.setInlet_resetLow (s : State) (f : Feed) (v : Valve) : (s.setInlet f v).resetLow = s.resetLow := rfl
@[simp] theorem State.setInlet_restartDue (s : State) (f : Feed) (v : Valve) : (s.setInlet f v).restartDue = s.restartDue := rfl
@[simp] theorem State.setInlet_saveAborted (s : State) (f : Feed) (v : Valve) : (s.setInlet f v).saveAborted = s.saveAborted := rfl
@[simp] theorem State.setInlet_ports (s : State) (f : Feed) (v : Valve) : (s.setInlet f v).ports = s.ports := rfl
@[simp] theorem State.setInlet_map (s : State) (f : Feed) (v : Valve) : (s.setInlet f v).map = s.map := rfl
@[simp] theorem State.setInlet_branches (s : State) (f : Feed) (v : Valve) : (s.setInlet f v).branches = s.branches := rfl
@[simp] theorem State.setInlet_scanner (s : State) (f : Feed) (v : Valve) : (s.setInlet f v).scanner = s.scanner := rfl
@[simp] theorem State.setInlet_measured (s : State) (f : Feed) (v : Valve) : (s.setInlet f v).measured = s.measured := rfl
@[simp] theorem State.setInlet_segments (s : State) (f : Feed) (v : Valve) : (s.setInlet f v).segments = s.segments := rfl
@[simp] theorem State.setInlet_head (s : State) (f : Feed) (v : Valve) : (s.setInlet f v).head = s.head := rfl
@[simp] theorem State.setInlet_planPending (s : State) (f : Feed) (v : Valve) : (s.setInlet f v).planPending = s.planPending := rfl
@[simp] theorem State.setInlet_planActive (s : State) (f : Feed) (v : Valve) : (s.setInlet f v).planActive = s.planActive := rfl
@[simp] theorem State.setInlet_freeze (s : State) (f : Feed) (v : Valve) : (s.setInlet f v).freeze = s.freeze := rfl
@[simp] theorem State.setInlet_timer (s : State) (f : Feed) (v : Valve) : (s.setInlet f v).timer = s.timer := rfl
@[simp] theorem State.setInlet_summary (s : State) (f : Feed) (v : Valve) : (s.setInlet f v).summary = s.summary := rfl
@[simp] theorem State.setInlet_leases (s : State) (f : Feed) (v : Valve) : (s.setInlet f v).leases = s.leases := rfl
@[simp] theorem State.setInlet_handover (s : State) (f : Feed) (v : Valve) : (s.setInlet f v).handover = s.handover := rfl
@[simp] theorem State.setInlet_activeFeed (s : State) (f : Feed) (v : Valve) : (s.setInlet f v).activeFeed = s.activeFeed := rfl
@[simp] theorem State.setInlet_switch (s : State) (f : Feed) (v : Valve) : (s.setInlet f v).switch = s.switch := rfl
@[simp] theorem State.setInlet_startup (s : State) (f : Feed) (v : Valve) : (s.setInlet f v).startup = s.startup := rfl
@[simp] theorem State.setInlet_bothOpen (s : State) (f : Feed) (v : Valve) : (s.setInlet f v).bothOpen = s.bothOpen := rfl
@[simp] theorem State.setInlet_feedLock (s : State) (f : Feed) (v : Valve) : (s.setInlet f v).feedLock = s.feedLock := rfl
@[simp] theorem State.setInlet_drips (s : State) (f : Feed) (v : Valve) : (s.setInlet f v).drips = s.drips := rfl
@[simp] theorem State.setInlet_zones (s : State) (f : Feed) (v : Valve) : (s.setInlet f v).zones = s.zones := rfl
@[simp] theorem State.setInlet_mode (s : State) (f : Feed) (v : Valve) : (s.setInlet f v).mode = s.mode := rfl
@[simp] theorem State.setInlet_faultHold (s : State) (f : Feed) (v : Valve) : (s.setInlet f v).faultHold = s.faultHold := rfl
@[simp] theorem State.setInlet_park (s : State) (f : Feed) (v : Valve) : (s.setInlet f v).park = s.park := rfl
@[simp] theorem State.setInlet_incidents (s : State) (f : Feed) (v : Valve) : (s.setInlet f v).incidents = s.incidents := rfl
@[simp] theorem State.setInlet_store (s : State) (f : Feed) (v : Valve) : (s.setInlet f v).store = s.store := rfl
@[simp] theorem State.setInlet_params (s : State) (f : Feed) (v : Valve) : (s.setInlet f v).params = s.params := rfl
@[simp] theorem State.setInlet_eeprom (s : State) (f : Feed) (v : Valve) : (s.setInlet f v).eeprom = s.eeprom := rfl
@[simp] theorem State.setInlet_imageTorn (s : State) (f : Feed) (v : Valve) : (s.setInlet f v).imageTorn = s.imageTorn := rfl
@[simp] theorem State.setInlet_draws (s : State) (f : Feed) (v : Valve) : (s.setInlet f v).draws = s.draws := rfl
@[simp] theorem State.setInlet_port (s : State) (f : Feed) (v : Valve) (p : Port) : (s.setInlet f v).port p = s.port p := rfl
@[simp] theorem State.setInlet_entry (s : State) (f : Feed) (v : Valve) (c : BranchId) : (s.setInlet f v).entry c = s.entry c := rfl
@[simp] theorem State.setInlet_branch (s : State) (f : Feed) (v : Valve) (c : BranchId) : (s.setInlet f v).branch c = s.branch c := rfl
@[simp] theorem State.setInlet_measure (s : State) (f : Feed) (v : Valve) (c : BranchId) : (s.setInlet f v).measure c = s.measure c := rfl
@[simp] theorem State.setInlet_segment (s : State) (f : Feed) (v : Valve) (c : SegId) : (s.setInlet f v).segment c = s.segment c := rfl
@[simp] theorem State.setInlet_pendingPlan (s : State) (f : Feed) (v : Valve) (c : BranchId) : (s.setInlet f v).pendingPlan c = s.pendingPlan c := rfl
@[simp] theorem State.setInlet_activePlan (s : State) (f : Feed) (v : Valve) (c : BranchId) : (s.setInlet f v).activePlan c = s.activePlan c := rfl
@[simp] theorem State.setInlet_lease (s : State) (f : Feed) (v : Valve) (g : Feed) : (s.setInlet f v).lease g = s.lease g := rfl
@[simp] theorem State.setInlet_drip (s : State) (f : Feed) (v : Valve) (c : BranchId) : (s.setInlet f v).drip c = s.drip c := rfl
@[simp] theorem State.setInlet_zone (s : State) (f : Feed) (v : Valve) (c : SegId) : (s.setInlet f v).zone c = s.zone c := rfl
@[simp] theorem State.setInlet_uptime (s : State) (f : Feed) (v : Valve) : (s.setInlet f v).uptime = s.uptime := rfl
@[simp] theorem State.setInlet_running (s : State) (f : Feed) (v : Valve) : (s.setInlet f v).running = s.running := rfl
@[simp] theorem State.setInlet_held (s : State) (f : Feed) (v : Valve) : (s.setInlet f v).held = s.held := rfl

/-! ### State.planToDefaults -/

@[simp] theorem State.planToDefaults_pending (s : State) (b : BranchId) : (s.planToDefaults b).pending = s.pending := rfl
@[simp] theorem State.planToDefaults_clock (s : State) (b : BranchId) : (s.planToDefaults b).clock = s.clock := rfl
@[simp] theorem State.planToDefaults_loading (s : State) (b : BranchId) : (s.planToDefaults b).loading = s.loading := rfl
@[simp] theorem State.planToDefaults_resetLow (s : State) (b : BranchId) : (s.planToDefaults b).resetLow = s.resetLow := rfl
@[simp] theorem State.planToDefaults_restartDue (s : State) (b : BranchId) : (s.planToDefaults b).restartDue = s.restartDue := rfl
@[simp] theorem State.planToDefaults_saveAborted (s : State) (b : BranchId) : (s.planToDefaults b).saveAborted = s.saveAborted := rfl
@[simp] theorem State.planToDefaults_ports (s : State) (b : BranchId) : (s.planToDefaults b).ports = s.ports := rfl
@[simp] theorem State.planToDefaults_map (s : State) (b : BranchId) : (s.planToDefaults b).map = s.map := rfl
@[simp] theorem State.planToDefaults_branches (s : State) (b : BranchId) : (s.planToDefaults b).branches = s.branches := rfl
@[simp] theorem State.planToDefaults_scanner (s : State) (b : BranchId) : (s.planToDefaults b).scanner = s.scanner := rfl
@[simp] theorem State.planToDefaults_measured (s : State) (b : BranchId) : (s.planToDefaults b).measured = s.measured := rfl
@[simp] theorem State.planToDefaults_segments (s : State) (b : BranchId) : (s.planToDefaults b).segments = s.segments := rfl
@[simp] theorem State.planToDefaults_head (s : State) (b : BranchId) : (s.planToDefaults b).head = s.head := rfl
@[simp] theorem State.planToDefaults_freeze (s : State) (b : BranchId) : (s.planToDefaults b).freeze = s.freeze := rfl
@[simp] theorem State.planToDefaults_timer (s : State) (b : BranchId) : (s.planToDefaults b).timer = s.timer := rfl
@[simp] theorem State.planToDefaults_summary (s : State) (b : BranchId) : (s.planToDefaults b).summary = s.summary := rfl
@[simp] theorem State.planToDefaults_leases (s : State) (b : BranchId) : (s.planToDefaults b).leases = s.leases := rfl
@[simp] theorem State.planToDefaults_handover (s : State) (b : BranchId) : (s.planToDefaults b).handover = s.handover := rfl
@[simp] theorem State.planToDefaults_feeds (s : State) (b : BranchId) : (s.planToDefaults b).feeds = s.feeds := rfl
@[simp] theorem State.planToDefaults_activeFeed (s : State) (b : BranchId) : (s.planToDefaults b).activeFeed = s.activeFeed := rfl
@[simp] theorem State.planToDefaults_switch (s : State) (b : BranchId) : (s.planToDefaults b).switch = s.switch := rfl
@[simp] theorem State.planToDefaults_startup (s : State) (b : BranchId) : (s.planToDefaults b).startup = s.startup := rfl
@[simp] theorem State.planToDefaults_bothOpen (s : State) (b : BranchId) : (s.planToDefaults b).bothOpen = s.bothOpen := rfl
@[simp] theorem State.planToDefaults_feedLock (s : State) (b : BranchId) : (s.planToDefaults b).feedLock = s.feedLock := rfl
@[simp] theorem State.planToDefaults_drips (s : State) (b : BranchId) : (s.planToDefaults b).drips = s.drips := rfl
@[simp] theorem State.planToDefaults_zones (s : State) (b : BranchId) : (s.planToDefaults b).zones = s.zones := rfl
@[simp] theorem State.planToDefaults_mode (s : State) (b : BranchId) : (s.planToDefaults b).mode = s.mode := rfl
@[simp] theorem State.planToDefaults_faultHold (s : State) (b : BranchId) : (s.planToDefaults b).faultHold = s.faultHold := rfl
@[simp] theorem State.planToDefaults_park (s : State) (b : BranchId) : (s.planToDefaults b).park = s.park := rfl
@[simp] theorem State.planToDefaults_incidents (s : State) (b : BranchId) : (s.planToDefaults b).incidents = s.incidents := rfl
@[simp] theorem State.planToDefaults_store (s : State) (b : BranchId) : (s.planToDefaults b).store = s.store := rfl
@[simp] theorem State.planToDefaults_params (s : State) (b : BranchId) : (s.planToDefaults b).params = s.params := rfl
@[simp] theorem State.planToDefaults_eeprom (s : State) (b : BranchId) : (s.planToDefaults b).eeprom = s.eeprom := rfl
@[simp] theorem State.planToDefaults_imageTorn (s : State) (b : BranchId) : (s.planToDefaults b).imageTorn = s.imageTorn := rfl
@[simp] theorem State.planToDefaults_draws (s : State) (b : BranchId) : (s.planToDefaults b).draws = s.draws := rfl
@[simp] theorem State.planToDefaults_port (s : State) (b : BranchId) (p : Port) : (s.planToDefaults b).port p = s.port p := rfl
@[simp] theorem State.planToDefaults_entry (s : State) (b : BranchId) (c : BranchId) : (s.planToDefaults b).entry c = s.entry c := rfl
@[simp] theorem State.planToDefaults_branch (s : State) (b : BranchId) (c : BranchId) : (s.planToDefaults b).branch c = s.branch c := rfl
@[simp] theorem State.planToDefaults_measure (s : State) (b : BranchId) (c : BranchId) : (s.planToDefaults b).measure c = s.measure c := rfl
@[simp] theorem State.planToDefaults_segment (s : State) (b : BranchId) (c : SegId) : (s.planToDefaults b).segment c = s.segment c := rfl
@[simp] theorem State.planToDefaults_lease (s : State) (b : BranchId) (g : Feed) : (s.planToDefaults b).lease g = s.lease g := rfl
@[simp] theorem State.planToDefaults_feed (s : State) (b : BranchId) (g : Feed) : (s.planToDefaults b).feed g = s.feed g := rfl
@[simp] theorem State.planToDefaults_drip (s : State) (b : BranchId) (c : BranchId) : (s.planToDefaults b).drip c = s.drip c := rfl
@[simp] theorem State.planToDefaults_zone (s : State) (b : BranchId) (c : SegId) : (s.planToDefaults b).zone c = s.zone c := rfl
@[simp] theorem State.planToDefaults_uptime (s : State) (b : BranchId) : (s.planToDefaults b).uptime = s.uptime := rfl
@[simp] theorem State.planToDefaults_running (s : State) (b : BranchId) : (s.planToDefaults b).running = s.running := rfl
@[simp] theorem State.planToDefaults_held (s : State) (b : BranchId) : (s.planToDefaults b).held = s.held := rfl

/-! ### State.answering -/

@[simp] theorem State.answering_pending (s : State) (q : Port) (k : Byte) (r : Reply) : (s.answering q k r).pending = s.pending := rfl
@[simp] theorem State.answering_clock (s : State) (q : Port) (k : Byte) (r : Reply) : (s.answering q k r).clock = s.clock := rfl
@[simp] theorem State.answering_loading (s : State) (q : Port) (k : Byte) (r : Reply) : (s.answering q k r).loading = s.loading := rfl
@[simp] theorem State.answering_resetLow (s : State) (q : Port) (k : Byte) (r : Reply) : (s.answering q k r).resetLow = s.resetLow := rfl
@[simp] theorem State.answering_restartDue (s : State) (q : Port) (k : Byte) (r : Reply) : (s.answering q k r).restartDue = s.restartDue := rfl
@[simp] theorem State.answering_saveAborted (s : State) (q : Port) (k : Byte) (r : Reply) : (s.answering q k r).saveAborted = s.saveAborted := rfl
@[simp] theorem State.answering_map (s : State) (q : Port) (k : Byte) (r : Reply) : (s.answering q k r).map = s.map := rfl
@[simp] theorem State.answering_branches (s : State) (q : Port) (k : Byte) (r : Reply) : (s.answering q k r).branches = s.branches := rfl
@[simp] theorem State.answering_scanner (s : State) (q : Port) (k : Byte) (r : Reply) : (s.answering q k r).scanner = s.scanner := rfl
@[simp] theorem State.answering_measured (s : State) (q : Port) (k : Byte) (r : Reply) : (s.answering q k r).measured = s.measured := rfl
@[simp] theorem State.answering_segments (s : State) (q : Port) (k : Byte) (r : Reply) : (s.answering q k r).segments = s.segments := rfl
@[simp] theorem State.answering_head (s : State) (q : Port) (k : Byte) (r : Reply) : (s.answering q k r).head = s.head := rfl
@[simp] theorem State.answering_planPending (s : State) (q : Port) (k : Byte) (r : Reply) : (s.answering q k r).planPending = s.planPending := rfl
@[simp] theorem State.answering_planActive (s : State) (q : Port) (k : Byte) (r : Reply) : (s.answering q k r).planActive = s.planActive := rfl
@[simp] theorem State.answering_freeze (s : State) (q : Port) (k : Byte) (r : Reply) : (s.answering q k r).freeze = s.freeze := rfl
@[simp] theorem State.answering_timer (s : State) (q : Port) (k : Byte) (r : Reply) : (s.answering q k r).timer = s.timer := rfl
@[simp] theorem State.answering_summary (s : State) (q : Port) (k : Byte) (r : Reply) : (s.answering q k r).summary = s.summary := rfl
@[simp] theorem State.answering_leases (s : State) (q : Port) (k : Byte) (r : Reply) : (s.answering q k r).leases = s.leases := rfl
@[simp] theorem State.answering_handover (s : State) (q : Port) (k : Byte) (r : Reply) : (s.answering q k r).handover = s.handover := rfl
@[simp] theorem State.answering_feeds (s : State) (q : Port) (k : Byte) (r : Reply) : (s.answering q k r).feeds = s.feeds := rfl
@[simp] theorem State.answering_activeFeed (s : State) (q : Port) (k : Byte) (r : Reply) : (s.answering q k r).activeFeed = s.activeFeed := rfl
@[simp] theorem State.answering_switch (s : State) (q : Port) (k : Byte) (r : Reply) : (s.answering q k r).switch = s.switch := rfl
@[simp] theorem State.answering_startup (s : State) (q : Port) (k : Byte) (r : Reply) : (s.answering q k r).startup = s.startup := rfl
@[simp] theorem State.answering_bothOpen (s : State) (q : Port) (k : Byte) (r : Reply) : (s.answering q k r).bothOpen = s.bothOpen := rfl
@[simp] theorem State.answering_feedLock (s : State) (q : Port) (k : Byte) (r : Reply) : (s.answering q k r).feedLock = s.feedLock := rfl
@[simp] theorem State.answering_drips (s : State) (q : Port) (k : Byte) (r : Reply) : (s.answering q k r).drips = s.drips := rfl
@[simp] theorem State.answering_zones (s : State) (q : Port) (k : Byte) (r : Reply) : (s.answering q k r).zones = s.zones := rfl
@[simp] theorem State.answering_mode (s : State) (q : Port) (k : Byte) (r : Reply) : (s.answering q k r).mode = s.mode := rfl
@[simp] theorem State.answering_faultHold (s : State) (q : Port) (k : Byte) (r : Reply) : (s.answering q k r).faultHold = s.faultHold := rfl
@[simp] theorem State.answering_park (s : State) (q : Port) (k : Byte) (r : Reply) : (s.answering q k r).park = s.park := rfl
@[simp] theorem State.answering_incidents (s : State) (q : Port) (k : Byte) (r : Reply) : (s.answering q k r).incidents = s.incidents := rfl
@[simp] theorem State.answering_store (s : State) (q : Port) (k : Byte) (r : Reply) : (s.answering q k r).store = s.store := rfl
@[simp] theorem State.answering_params (s : State) (q : Port) (k : Byte) (r : Reply) : (s.answering q k r).params = s.params := rfl
@[simp] theorem State.answering_eeprom (s : State) (q : Port) (k : Byte) (r : Reply) : (s.answering q k r).eeprom = s.eeprom := rfl
@[simp] theorem State.answering_imageTorn (s : State) (q : Port) (k : Byte) (r : Reply) : (s.answering q k r).imageTorn = s.imageTorn := rfl
@[simp] theorem State.answering_draws (s : State) (q : Port) (k : Byte) (r : Reply) : (s.answering q k r).draws = s.draws := rfl
@[simp] theorem State.answering_entry (s : State) (q : Port) (k : Byte) (r : Reply) (c : BranchId) : (s.answering q k r).entry c = s.entry c := rfl
@[simp] theorem State.answering_branch (s : State) (q : Port) (k : Byte) (r : Reply) (c : BranchId) : (s.answering q k r).branch c = s.branch c := rfl
@[simp] theorem State.answering_measure (s : State) (q : Port) (k : Byte) (r : Reply) (c : BranchId) : (s.answering q k r).measure c = s.measure c := rfl
@[simp] theorem State.answering_segment (s : State) (q : Port) (k : Byte) (r : Reply) (c : SegId) : (s.answering q k r).segment c = s.segment c := rfl
@[simp] theorem State.answering_pendingPlan (s : State) (q : Port) (k : Byte) (r : Reply) (c : BranchId) : (s.answering q k r).pendingPlan c = s.pendingPlan c := rfl
@[simp] theorem State.answering_activePlan (s : State) (q : Port) (k : Byte) (r : Reply) (c : BranchId) : (s.answering q k r).activePlan c = s.activePlan c := rfl
@[simp] theorem State.answering_lease (s : State) (q : Port) (k : Byte) (r : Reply) (g : Feed) : (s.answering q k r).lease g = s.lease g := rfl
@[simp] theorem State.answering_feed (s : State) (q : Port) (k : Byte) (r : Reply) (g : Feed) : (s.answering q k r).feed g = s.feed g := rfl
@[simp] theorem State.answering_drip (s : State) (q : Port) (k : Byte) (r : Reply) (c : BranchId) : (s.answering q k r).drip c = s.drip c := rfl
@[simp] theorem State.answering_zone (s : State) (q : Port) (k : Byte) (r : Reply) (c : SegId) : (s.answering q k r).zone c = s.zone c := rfl
@[simp] theorem State.answering_uptime (s : State) (q : Port) (k : Byte) (r : Reply) : (s.answering q k r).uptime = s.uptime := rfl
@[simp] theorem State.answering_running (s : State) (q : Port) (k : Byte) (r : Reply) : (s.answering q k r).running = s.running := rfl
@[simp] theorem State.answering_held (s : State) (q : Port) (k : Byte) (r : Reply) : (s.answering q k r).held = s.held := rfl

/-! ### notify -/

@[simp] theorem notify_pending (s : State) (q : Port) (n : Notice) : (notify q n s).pending = s.pending := rfl
@[simp] theorem notify_clock (s : State) (q : Port) (n : Notice) : (notify q n s).clock = s.clock := rfl
@[simp] theorem notify_loading (s : State) (q : Port) (n : Notice) : (notify q n s).loading = s.loading := rfl
@[simp] theorem notify_resetLow (s : State) (q : Port) (n : Notice) : (notify q n s).resetLow = s.resetLow := rfl
@[simp] theorem notify_restartDue (s : State) (q : Port) (n : Notice) : (notify q n s).restartDue = s.restartDue := rfl
@[simp] theorem notify_saveAborted (s : State) (q : Port) (n : Notice) : (notify q n s).saveAborted = s.saveAborted := rfl
@[simp] theorem notify_map (s : State) (q : Port) (n : Notice) : (notify q n s).map = s.map := rfl
@[simp] theorem notify_branches (s : State) (q : Port) (n : Notice) : (notify q n s).branches = s.branches := rfl
@[simp] theorem notify_scanner (s : State) (q : Port) (n : Notice) : (notify q n s).scanner = s.scanner := rfl
@[simp] theorem notify_measured (s : State) (q : Port) (n : Notice) : (notify q n s).measured = s.measured := rfl
@[simp] theorem notify_segments (s : State) (q : Port) (n : Notice) : (notify q n s).segments = s.segments := rfl
@[simp] theorem notify_head (s : State) (q : Port) (n : Notice) : (notify q n s).head = s.head := rfl
@[simp] theorem notify_planPending (s : State) (q : Port) (n : Notice) : (notify q n s).planPending = s.planPending := rfl
@[simp] theorem notify_planActive (s : State) (q : Port) (n : Notice) : (notify q n s).planActive = s.planActive := rfl
@[simp] theorem notify_freeze (s : State) (q : Port) (n : Notice) : (notify q n s).freeze = s.freeze := rfl
@[simp] theorem notify_timer (s : State) (q : Port) (n : Notice) : (notify q n s).timer = s.timer := rfl
@[simp] theorem notify_summary (s : State) (q : Port) (n : Notice) : (notify q n s).summary = s.summary := rfl
@[simp] theorem notify_leases (s : State) (q : Port) (n : Notice) : (notify q n s).leases = s.leases := rfl
@[simp] theorem notify_handover (s : State) (q : Port) (n : Notice) : (notify q n s).handover = s.handover := rfl
@[simp] theorem notify_feeds (s : State) (q : Port) (n : Notice) : (notify q n s).feeds = s.feeds := rfl
@[simp] theorem notify_activeFeed (s : State) (q : Port) (n : Notice) : (notify q n s).activeFeed = s.activeFeed := rfl
@[simp] theorem notify_switch (s : State) (q : Port) (n : Notice) : (notify q n s).switch = s.switch := rfl
@[simp] theorem notify_startup (s : State) (q : Port) (n : Notice) : (notify q n s).startup = s.startup := rfl
@[simp] theorem notify_bothOpen (s : State) (q : Port) (n : Notice) : (notify q n s).bothOpen = s.bothOpen := rfl
@[simp] theorem notify_feedLock (s : State) (q : Port) (n : Notice) : (notify q n s).feedLock = s.feedLock := rfl
@[simp] theorem notify_drips (s : State) (q : Port) (n : Notice) : (notify q n s).drips = s.drips := rfl
@[simp] theorem notify_zones (s : State) (q : Port) (n : Notice) : (notify q n s).zones = s.zones := rfl
@[simp] theorem notify_mode (s : State) (q : Port) (n : Notice) : (notify q n s).mode = s.mode := rfl
@[simp] theorem notify_faultHold (s : State) (q : Port) (n : Notice) : (notify q n s).faultHold = s.faultHold := rfl
@[simp] theorem notify_park (s : State) (q : Port) (n : Notice) : (notify q n s).park = s.park := rfl
@[simp] theorem notify_incidents (s : State) (q : Port) (n : Notice) : (notify q n s).incidents = s.incidents := rfl
@[simp] theorem notify_store (s : State) (q : Port) (n : Notice) : (notify q n s).store = s.store := rfl
@[simp] theorem notify_params (s : State) (q : Port) (n : Notice) : (notify q n s).params = s.params := rfl
@[simp] theorem notify_eeprom (s : State) (q : Port) (n : Notice) : (notify q n s).eeprom = s.eeprom := rfl
@[simp] theorem notify_imageTorn (s : State) (q : Port) (n : Notice) : (notify q n s).imageTorn = s.imageTorn := rfl
@[simp] theorem notify_draws (s : State) (q : Port) (n : Notice) : (notify q n s).draws = s.draws := rfl
@[simp] theorem notify_entry (s : State) (q : Port) (n : Notice) (c : BranchId) : (notify q n s).entry c = s.entry c := rfl
@[simp] theorem notify_branch (s : State) (q : Port) (n : Notice) (c : BranchId) : (notify q n s).branch c = s.branch c := rfl
@[simp] theorem notify_measure (s : State) (q : Port) (n : Notice) (c : BranchId) : (notify q n s).measure c = s.measure c := rfl
@[simp] theorem notify_segment (s : State) (q : Port) (n : Notice) (c : SegId) : (notify q n s).segment c = s.segment c := rfl
@[simp] theorem notify_pendingPlan (s : State) (q : Port) (n : Notice) (c : BranchId) : (notify q n s).pendingPlan c = s.pendingPlan c := rfl
@[simp] theorem notify_activePlan (s : State) (q : Port) (n : Notice) (c : BranchId) : (notify q n s).activePlan c = s.activePlan c := rfl
@[simp] theorem notify_lease (s : State) (q : Port) (n : Notice) (g : Feed) : (notify q n s).lease g = s.lease g := rfl
@[simp] theorem notify_feed (s : State) (q : Port) (n : Notice) (g : Feed) : (notify q n s).feed g = s.feed g := rfl
@[simp] theorem notify_drip (s : State) (q : Port) (n : Notice) (c : BranchId) : (notify q n s).drip c = s.drip c := rfl
@[simp] theorem notify_zone (s : State) (q : Port) (n : Notice) (c : SegId) : (notify q n s).zone c = s.zone c := rfl
@[simp] theorem notify_uptime (s : State) (q : Port) (n : Notice) : (notify q n s).uptime = s.uptime := rfl
@[simp] theorem notify_running (s : State) (q : Port) (n : Notice) : (notify q n s).running = s.running := rfl
@[simp] theorem notify_held (s : State) (q : Port) (n : Notice) : (notify q n s).held = s.held := rfl

/-! ### notifyAll -/

@[simp] theorem notifyAll_pending (s : State) (n : Notice) : (notifyAll n s).pending = s.pending := rfl
@[simp] theorem notifyAll_clock (s : State) (n : Notice) : (notifyAll n s).clock = s.clock := rfl
@[simp] theorem notifyAll_loading (s : State) (n : Notice) : (notifyAll n s).loading = s.loading := rfl
@[simp] theorem notifyAll_resetLow (s : State) (n : Notice) : (notifyAll n s).resetLow = s.resetLow := rfl
@[simp] theorem notifyAll_restartDue (s : State) (n : Notice) : (notifyAll n s).restartDue = s.restartDue := rfl
@[simp] theorem notifyAll_saveAborted (s : State) (n : Notice) : (notifyAll n s).saveAborted = s.saveAborted := rfl
@[simp] theorem notifyAll_map (s : State) (n : Notice) : (notifyAll n s).map = s.map := rfl
@[simp] theorem notifyAll_branches (s : State) (n : Notice) : (notifyAll n s).branches = s.branches := rfl
@[simp] theorem notifyAll_scanner (s : State) (n : Notice) : (notifyAll n s).scanner = s.scanner := rfl
@[simp] theorem notifyAll_measured (s : State) (n : Notice) : (notifyAll n s).measured = s.measured := rfl
@[simp] theorem notifyAll_segments (s : State) (n : Notice) : (notifyAll n s).segments = s.segments := rfl
@[simp] theorem notifyAll_head (s : State) (n : Notice) : (notifyAll n s).head = s.head := rfl
@[simp] theorem notifyAll_planPending (s : State) (n : Notice) : (notifyAll n s).planPending = s.planPending := rfl
@[simp] theorem notifyAll_planActive (s : State) (n : Notice) : (notifyAll n s).planActive = s.planActive := rfl
@[simp] theorem notifyAll_freeze (s : State) (n : Notice) : (notifyAll n s).freeze = s.freeze := rfl
@[simp] theorem notifyAll_timer (s : State) (n : Notice) : (notifyAll n s).timer = s.timer := rfl
@[simp] theorem notifyAll_summary (s : State) (n : Notice) : (notifyAll n s).summary = s.summary := rfl
@[simp] theorem notifyAll_leases (s : State) (n : Notice) : (notifyAll n s).leases = s.leases := rfl
@[simp] theorem notifyAll_handover (s : State) (n : Notice) : (notifyAll n s).handover = s.handover := rfl
@[simp] theorem notifyAll_feeds (s : State) (n : Notice) : (notifyAll n s).feeds = s.feeds := rfl
@[simp] theorem notifyAll_activeFeed (s : State) (n : Notice) : (notifyAll n s).activeFeed = s.activeFeed := rfl
@[simp] theorem notifyAll_switch (s : State) (n : Notice) : (notifyAll n s).switch = s.switch := rfl
@[simp] theorem notifyAll_startup (s : State) (n : Notice) : (notifyAll n s).startup = s.startup := rfl
@[simp] theorem notifyAll_bothOpen (s : State) (n : Notice) : (notifyAll n s).bothOpen = s.bothOpen := rfl
@[simp] theorem notifyAll_feedLock (s : State) (n : Notice) : (notifyAll n s).feedLock = s.feedLock := rfl
@[simp] theorem notifyAll_drips (s : State) (n : Notice) : (notifyAll n s).drips = s.drips := rfl
@[simp] theorem notifyAll_zones (s : State) (n : Notice) : (notifyAll n s).zones = s.zones := rfl
@[simp] theorem notifyAll_mode (s : State) (n : Notice) : (notifyAll n s).mode = s.mode := rfl
@[simp] theorem notifyAll_faultHold (s : State) (n : Notice) : (notifyAll n s).faultHold = s.faultHold := rfl
@[simp] theorem notifyAll_park (s : State) (n : Notice) : (notifyAll n s).park = s.park := rfl
@[simp] theorem notifyAll_incidents (s : State) (n : Notice) : (notifyAll n s).incidents = s.incidents := rfl
@[simp] theorem notifyAll_store (s : State) (n : Notice) : (notifyAll n s).store = s.store := rfl
@[simp] theorem notifyAll_params (s : State) (n : Notice) : (notifyAll n s).params = s.params := rfl
@[simp] theorem notifyAll_eeprom (s : State) (n : Notice) : (notifyAll n s).eeprom = s.eeprom := rfl
@[simp] theorem notifyAll_imageTorn (s : State) (n : Notice) : (notifyAll n s).imageTorn = s.imageTorn := rfl
@[simp] theorem notifyAll_draws (s : State) (n : Notice) : (notifyAll n s).draws = s.draws := rfl
@[simp] theorem notifyAll_entry (s : State) (n : Notice) (c : BranchId) : (notifyAll n s).entry c = s.entry c := rfl
@[simp] theorem notifyAll_branch (s : State) (n : Notice) (c : BranchId) : (notifyAll n s).branch c = s.branch c := rfl
@[simp] theorem notifyAll_measure (s : State) (n : Notice) (c : BranchId) : (notifyAll n s).measure c = s.measure c := rfl
@[simp] theorem notifyAll_segment (s : State) (n : Notice) (c : SegId) : (notifyAll n s).segment c = s.segment c := rfl
@[simp] theorem notifyAll_pendingPlan (s : State) (n : Notice) (c : BranchId) : (notifyAll n s).pendingPlan c = s.pendingPlan c := rfl
@[simp] theorem notifyAll_activePlan (s : State) (n : Notice) (c : BranchId) : (notifyAll n s).activePlan c = s.activePlan c := rfl
@[simp] theorem notifyAll_lease (s : State) (n : Notice) (g : Feed) : (notifyAll n s).lease g = s.lease g := rfl
@[simp] theorem notifyAll_feed (s : State) (n : Notice) (g : Feed) : (notifyAll n s).feed g = s.feed g := rfl
@[simp] theorem notifyAll_drip (s : State) (n : Notice) (c : BranchId) : (notifyAll n s).drip c = s.drip c := rfl
@[simp] theorem notifyAll_zone (s : State) (n : Notice) (c : SegId) : (notifyAll n s).zone c = s.zone c := rfl
@[simp] theorem notifyAll_uptime (s : State) (n : Notice) : (notifyAll n s).uptime = s.uptime := rfl
@[simp] theorem notifyAll_running (s : State) (n : Notice) : (notifyAll n s).running = s.running := rfl
@[simp] theorem notifyAll_held (s : State) (n : Notice) : (notifyAll n s).held = s.held := rfl

/-! ### enter -/

@[simp] theorem enter_pending (s : State) (b : BranchId) (x : Branch) : (enter b x s).pending = s.pending := rfl
@[simp] theorem enter_clock (s : State) (b : BranchId) (x : Branch) : (enter b x s).clock = s.clock := rfl
@[simp] theorem enter_loading (s : State) (b : BranchId) (x : Branch) : (enter b x s).loading = s.loading := rfl
@[simp] theorem enter_resetLow (s : State) (b : BranchId) (x : Branch) : (enter b x s).resetLow = s.resetLow := rfl
@[simp] theorem enter_restartDue (s : State) (b : BranchId) (x : Branch) : (enter b x s).restartDue = s.restartDue := rfl
@[simp] theorem enter_saveAborted (s : State) (b : BranchId) (x : Branch) : (enter b x s).saveAborted = s.saveAborted := rfl
@[simp] theorem enter_map (s : State) (b : BranchId) (x : Branch) : (enter b x s).map = s.map := rfl
@[simp] theorem enter_scanner (s : State) (b : BranchId) (x : Branch) : (enter b x s).scanner = s.scanner := rfl
@[simp] theorem enter_measured (s : State) (b : BranchId) (x : Branch) : (enter b x s).measured = s.measured := rfl
@[simp] theorem enter_segments (s : State) (b : BranchId) (x : Branch) : (enter b x s).segments = s.segments := rfl
@[simp] theorem enter_head (s : State) (b : BranchId) (x : Branch) : (enter b x s).head = s.head := rfl
@[simp] theorem enter_planPending (s : State) (b : BranchId) (x : Branch) : (enter b x s).planPending = s.planPending := rfl
@[simp] theorem enter_planActive (s : State) (b : BranchId) (x : Branch) : (enter b x s).planActive = s.planActive := rfl
@[simp] theorem enter_freeze (s : State) (b : BranchId) (x : Branch) : (enter b x s).freeze = s.freeze := rfl
@[simp] theorem enter_timer (s : State) (b : BranchId) (x : Branch) : (enter b x s).timer = s.timer := rfl
@[simp] theorem enter_summary (s : State) (b : BranchId) (x : Branch) : (enter b x s).summary = s.summary := rfl
@[simp] theorem enter_leases (s : State) (b : BranchId) (x : Branch) : (enter b x s).leases = s.leases := rfl
@[simp] theorem enter_handover (s : State) (b : BranchId) (x : Branch) : (enter b x s).handover = s.handover := rfl
@[simp] theorem enter_feeds (s : State) (b : BranchId) (x : Branch) : (enter b x s).feeds = s.feeds := rfl
@[simp] theorem enter_activeFeed (s : State) (b : BranchId) (x : Branch) : (enter b x s).activeFeed = s.activeFeed := rfl
@[simp] theorem enter_switch (s : State) (b : BranchId) (x : Branch) : (enter b x s).switch = s.switch := rfl
@[simp] theorem enter_startup (s : State) (b : BranchId) (x : Branch) : (enter b x s).startup = s.startup := rfl
@[simp] theorem enter_bothOpen (s : State) (b : BranchId) (x : Branch) : (enter b x s).bothOpen = s.bothOpen := rfl
@[simp] theorem enter_feedLock (s : State) (b : BranchId) (x : Branch) : (enter b x s).feedLock = s.feedLock := rfl
@[simp] theorem enter_drips (s : State) (b : BranchId) (x : Branch) : (enter b x s).drips = s.drips := rfl
@[simp] theorem enter_zones (s : State) (b : BranchId) (x : Branch) : (enter b x s).zones = s.zones := rfl
@[simp] theorem enter_mode (s : State) (b : BranchId) (x : Branch) : (enter b x s).mode = s.mode := rfl
@[simp] theorem enter_faultHold (s : State) (b : BranchId) (x : Branch) : (enter b x s).faultHold = s.faultHold := rfl
@[simp] theorem enter_park (s : State) (b : BranchId) (x : Branch) : (enter b x s).park = s.park := rfl
@[simp] theorem enter_incidents (s : State) (b : BranchId) (x : Branch) : (enter b x s).incidents = s.incidents := rfl
@[simp] theorem enter_store (s : State) (b : BranchId) (x : Branch) : (enter b x s).store = s.store := rfl
@[simp] theorem enter_params (s : State) (b : BranchId) (x : Branch) : (enter b x s).params = s.params := rfl
@[simp] theorem enter_eeprom (s : State) (b : BranchId) (x : Branch) : (enter b x s).eeprom = s.eeprom := rfl
@[simp] theorem enter_imageTorn (s : State) (b : BranchId) (x : Branch) : (enter b x s).imageTorn = s.imageTorn := rfl
@[simp] theorem enter_draws (s : State) (b : BranchId) (x : Branch) : (enter b x s).draws = s.draws := rfl
@[simp] theorem enter_entry (s : State) (b : BranchId) (x : Branch) (c : BranchId) : (enter b x s).entry c = s.entry c := rfl
@[simp] theorem enter_measure (s : State) (b : BranchId) (x : Branch) (c : BranchId) : (enter b x s).measure c = s.measure c := rfl
@[simp] theorem enter_segment (s : State) (b : BranchId) (x : Branch) (c : SegId) : (enter b x s).segment c = s.segment c := rfl
@[simp] theorem enter_pendingPlan (s : State) (b : BranchId) (x : Branch) (c : BranchId) : (enter b x s).pendingPlan c = s.pendingPlan c := rfl
@[simp] theorem enter_activePlan (s : State) (b : BranchId) (x : Branch) (c : BranchId) : (enter b x s).activePlan c = s.activePlan c := rfl
@[simp] theorem enter_lease (s : State) (b : BranchId) (x : Branch) (g : Feed) : (enter b x s).lease g = s.lease g := rfl
@[simp] theorem enter_feed (s : State) (b : BranchId) (x : Branch) (g : Feed) : (enter b x s).feed g = s.feed g := rfl
@[simp] theorem enter_drip (s : State) (b : BranchId) (x : Branch) (c : BranchId) : (enter b x s).drip c = s.drip c := rfl
@[simp] theorem enter_zone (s : State) (b : BranchId) (x : Branch) (c : SegId) : (enter b x s).zone c = s.zone c := rfl
@[simp] theorem enter_uptime (s : State) (b : BranchId) (x : Branch) : (enter b x s).uptime = s.uptime := rfl
@[simp] theorem enter_running (s : State) (b : BranchId) (x : Branch) : (enter b x s).running = s.running := rfl
@[simp] theorem enter_held (s : State) (b : BranchId) (x : Branch) : (enter b x s).held = s.held := rfl

/-! ### handMark -/

@[simp] theorem handMark_pending (s : State) (b : BranchId) (v : Bool) : (handMark b v s).pending = s.pending := rfl
@[simp] theorem handMark_clock (s : State) (b : BranchId) (v : Bool) : (handMark b v s).clock = s.clock := rfl
@[simp] theorem handMark_loading (s : State) (b : BranchId) (v : Bool) : (handMark b v s).loading = s.loading := rfl
@[simp] theorem handMark_resetLow (s : State) (b : BranchId) (v : Bool) : (handMark b v s).resetLow = s.resetLow := rfl
@[simp] theorem handMark_restartDue (s : State) (b : BranchId) (v : Bool) : (handMark b v s).restartDue = s.restartDue := rfl
@[simp] theorem handMark_saveAborted (s : State) (b : BranchId) (v : Bool) : (handMark b v s).saveAborted = s.saveAborted := rfl
@[simp] theorem handMark_ports (s : State) (b : BranchId) (v : Bool) : (handMark b v s).ports = s.ports := rfl
@[simp] theorem handMark_map (s : State) (b : BranchId) (v : Bool) : (handMark b v s).map = s.map := rfl
@[simp] theorem handMark_branches (s : State) (b : BranchId) (v : Bool) : (handMark b v s).branches = s.branches := rfl
@[simp] theorem handMark_scanner (s : State) (b : BranchId) (v : Bool) : (handMark b v s).scanner = s.scanner := rfl
@[simp] theorem handMark_measured (s : State) (b : BranchId) (v : Bool) : (handMark b v s).measured = s.measured := rfl
@[simp] theorem handMark_segments (s : State) (b : BranchId) (v : Bool) : (handMark b v s).segments = s.segments := rfl
@[simp] theorem handMark_head (s : State) (b : BranchId) (v : Bool) : (handMark b v s).head = s.head := rfl
@[simp] theorem handMark_planPending (s : State) (b : BranchId) (v : Bool) : (handMark b v s).planPending = s.planPending := rfl
@[simp] theorem handMark_planActive (s : State) (b : BranchId) (v : Bool) : (handMark b v s).planActive = s.planActive := rfl
@[simp] theorem handMark_freeze (s : State) (b : BranchId) (v : Bool) : (handMark b v s).freeze = s.freeze := rfl
@[simp] theorem handMark_timer (s : State) (b : BranchId) (v : Bool) : (handMark b v s).timer = s.timer := rfl
@[simp] theorem handMark_summary (s : State) (b : BranchId) (v : Bool) : (handMark b v s).summary = s.summary := rfl
@[simp] theorem handMark_leases (s : State) (b : BranchId) (v : Bool) : (handMark b v s).leases = s.leases := rfl
@[simp] theorem handMark_handover (s : State) (b : BranchId) (v : Bool) : (handMark b v s).handover = s.handover := rfl
@[simp] theorem handMark_feeds (s : State) (b : BranchId) (v : Bool) : (handMark b v s).feeds = s.feeds := rfl
@[simp] theorem handMark_activeFeed (s : State) (b : BranchId) (v : Bool) : (handMark b v s).activeFeed = s.activeFeed := rfl
@[simp] theorem handMark_switch (s : State) (b : BranchId) (v : Bool) : (handMark b v s).switch = s.switch := rfl
@[simp] theorem handMark_startup (s : State) (b : BranchId) (v : Bool) : (handMark b v s).startup = s.startup := rfl
@[simp] theorem handMark_bothOpen (s : State) (b : BranchId) (v : Bool) : (handMark b v s).bothOpen = s.bothOpen := rfl
@[simp] theorem handMark_feedLock (s : State) (b : BranchId) (v : Bool) : (handMark b v s).feedLock = s.feedLock := rfl
@[simp] theorem handMark_drips (s : State) (b : BranchId) (v : Bool) : (handMark b v s).drips = s.drips := rfl
@[simp] theorem handMark_zones (s : State) (b : BranchId) (v : Bool) : (handMark b v s).zones = s.zones := rfl
@[simp] theorem handMark_mode (s : State) (b : BranchId) (v : Bool) : (handMark b v s).mode = s.mode := rfl
@[simp] theorem handMark_faultHold (s : State) (b : BranchId) (v : Bool) : (handMark b v s).faultHold = s.faultHold := rfl
@[simp] theorem handMark_park (s : State) (b : BranchId) (v : Bool) : (handMark b v s).park = s.park := rfl
@[simp] theorem handMark_incidents (s : State) (b : BranchId) (v : Bool) : (handMark b v s).incidents = s.incidents := rfl
@[simp] theorem handMark_params (s : State) (b : BranchId) (v : Bool) : (handMark b v s).params = s.params := rfl
@[simp] theorem handMark_eeprom (s : State) (b : BranchId) (v : Bool) : (handMark b v s).eeprom = s.eeprom := rfl
@[simp] theorem handMark_imageTorn (s : State) (b : BranchId) (v : Bool) : (handMark b v s).imageTorn = s.imageTorn := rfl
@[simp] theorem handMark_draws (s : State) (b : BranchId) (v : Bool) : (handMark b v s).draws = s.draws := rfl
@[simp] theorem handMark_port (s : State) (b : BranchId) (v : Bool) (p : Port) : (handMark b v s).port p = s.port p := rfl
@[simp] theorem handMark_entry (s : State) (b : BranchId) (v : Bool) (c : BranchId) : (handMark b v s).entry c = s.entry c := rfl
@[simp] theorem handMark_branch (s : State) (b : BranchId) (v : Bool) (c : BranchId) : (handMark b v s).branch c = s.branch c := rfl
@[simp] theorem handMark_measure (s : State) (b : BranchId) (v : Bool) (c : BranchId) : (handMark b v s).measure c = s.measure c := rfl
@[simp] theorem handMark_segment (s : State) (b : BranchId) (v : Bool) (c : SegId) : (handMark b v s).segment c = s.segment c := rfl
@[simp] theorem handMark_pendingPlan (s : State) (b : BranchId) (v : Bool) (c : BranchId) : (handMark b v s).pendingPlan c = s.pendingPlan c := rfl
@[simp] theorem handMark_activePlan (s : State) (b : BranchId) (v : Bool) (c : BranchId) : (handMark b v s).activePlan c = s.activePlan c := rfl
@[simp] theorem handMark_lease (s : State) (b : BranchId) (v : Bool) (g : Feed) : (handMark b v s).lease g = s.lease g := rfl
@[simp] theorem handMark_feed (s : State) (b : BranchId) (v : Bool) (g : Feed) : (handMark b v s).feed g = s.feed g := rfl
@[simp] theorem handMark_drip (s : State) (b : BranchId) (v : Bool) (c : BranchId) : (handMark b v s).drip c = s.drip c := rfl
@[simp] theorem handMark_zone (s : State) (b : BranchId) (v : Bool) (c : SegId) : (handMark b v s).zone c = s.zone c := rfl
@[simp] theorem handMark_uptime (s : State) (b : BranchId) (v : Bool) : (handMark b v s).uptime = s.uptime := rfl
@[simp] theorem handMark_running (s : State) (b : BranchId) (v : Bool) : (handMark b v s).running = s.running := rfl
@[simp] theorem handMark_held (s : State) (b : BranchId) (v : Bool) : (handMark b v s).held = s.held := rfl

/-! ### What the passing of time leaves alone -/

/-- Two states that agree in everything but what the passing of time, with the lease marks that fall in it, can change. -/
def SameButTime (s t : State) : Prop :=
  t = { s with
    clock := t.clock, branches := t.branches, freeze := t.freeze, leases := t.leases, handover := t.handover,
    feeds := t.feeds, switch := t.switch, startup := t.startup, bothOpen := t.bothOpen, zones := t.zones, park := t.park,
    incidents := t.incidents, store := { s.store with retry := t.store.retry }, ports := t.ports, draws := t.draws }

theorem SameButTime.trans {s t u : State} (h : SameButTime s t) (k : SameButTime t u) : SameButTime s u := by
  unfold SameButTime at *; rw [h] at k; exact k

theorem State.passTime_sameButTime (s : State) (ms : Nat) : SameButTime s (s.passTime ms) := rfl

theorem report_sameButTime (k : Kind) (u : Subject) (d : Option Int) (s : State) : SameButTime s (report k u d s) := by
  simp only [report]; split <;> rfl

theorem takeLeaseMark_sameButTime (f : Feed) (s : State) : SameButTime s (takeLeaseMark f s) := by
  unfold takeLeaseMark
  split
  · rename_i l _
    split
    · cases l.phase
      · exact rfl
      · simp only [reachMark, reachT2, makeHandoverTest]; split <;> exact rfl
      · simp only [reachMark, lapse]
        split
        · exact SameButTime.trans (t := leasePhase f .lapsed s) rfl
            (SameButTime.trans (report_sameButTime _ _ _ _) rfl)
        · exact rfl
      · exact rfl
    · exact rfl
  · exact rfl

theorem takeLeaseMarks_sameButTime (s : State) : SameButTime s (takeLeaseMarks s) := by
  unfold takeLeaseMarks
  split
  · refine SameButTime.trans (t := { s with draws := s.draws + 1 }) rfl ?_
    dsimp only
    split <;> exact (takeLeaseMark_sameButTime _ _).trans (takeLeaseMark_sameButTime _ _)
  · exact (takeLeaseMark_sameButTime _ _).trans (takeLeaseMark_sameButTime _ _)

/-- What time and the lease marks keep, their passing keeps. -/
theorem passing_induction {P : State → Prop} (time : ∀ s ms, P s → P (s.passTime ms))
    (marks : ∀ s, P s → P (takeLeaseMarks s)) (n ms : Nat) {s : State} (h : P s) : P (passing n ms s) := by
  induction n generalizing ms s with
  | zero => exact time _ _ h
  | succ n ih =>
    unfold passing
    split
    · split
      · exact ih _ (marks _ (time _ _ h))
      · exact time _ _ h
    · exact time _ _ h

theorem State.elapseBefore_sameButTime (s : State) (ms : Nat) : SameButTime s (s.elapseBefore ms) := by
  unfold State.elapseBefore
  split
  · exact passing_induction (P := SameButTime s) (fun t n h => h.trans (t.passTime_sameButTime n))
      (fun t h => h.trans (takeLeaseMarks_sameButTime t)) _ _ rfl
  · exact rfl

theorem State.elapse_sameButTime (s : State) (ms : Nat) : SameButTime s (s.elapse ms) := by
  unfold State.elapse
  split
  · exact (s.elapseBefore_sameButTime ms).trans (takeLeaseMarks_sameButTime _)
  · exact s.elapseBefore_sameButTime ms

/-! ### report -/

@[simp] theorem report_pending (s : State) (k : Kind) (u : Subject) (d : Option Int) : (report k u d s).pending = s.pending := by simp only [report]; split <;> rfl
@[simp] theorem report_clock (s : State) (k : Kind) (u : Subject) (d : Option Int) : (report k u d s).clock = s.clock := by simp only [report]; split <;> rfl
@[simp] theorem report_loading (s : State) (k : Kind) (u : Subject) (d : Option Int) : (report k u d s).loading = s.loading := by simp only [report]; split <;> rfl
@[simp] theorem report_resetLow (s : State) (k : Kind) (u : Subject) (d : Option Int) : (report k u d s).resetLow = s.resetLow := by simp only [report]; split <;> rfl
@[simp] theorem report_restartDue (s : State) (k : Kind) (u : Subject) (d : Option Int) : (report k u d s).restartDue = s.restartDue := by simp only [report]; split <;> rfl
@[simp] theorem report_saveAborted (s : State) (k : Kind) (u : Subject) (d : Option Int) : (report k u d s).saveAborted = s.saveAborted := by simp only [report]; split <;> rfl
@[simp] theorem report_map (s : State) (k : Kind) (u : Subject) (d : Option Int) : (report k u d s).map = s.map := by simp only [report]; split <;> rfl
@[simp] theorem report_branches (s : State) (k : Kind) (u : Subject) (d : Option Int) : (report k u d s).branches = s.branches := by simp only [report]; split <;> rfl
@[simp] theorem report_scanner (s : State) (k : Kind) (u : Subject) (d : Option Int) : (report k u d s).scanner = s.scanner := by simp only [report]; split <;> rfl
@[simp] theorem report_measured (s : State) (k : Kind) (u : Subject) (d : Option Int) : (report k u d s).measured = s.measured := by simp only [report]; split <;> rfl
@[simp] theorem report_segments (s : State) (k : Kind) (u : Subject) (d : Option Int) : (report k u d s).segments = s.segments := by simp only [report]; split <;> rfl
@[simp] theorem report_head (s : State) (k : Kind) (u : Subject) (d : Option Int) : (report k u d s).head = s.head := by simp only [report]; split <;> rfl
@[simp] theorem report_planPending (s : State) (k : Kind) (u : Subject) (d : Option Int) : (report k u d s).planPending = s.planPending := by simp only [report]; split <;> rfl
@[simp] theorem report_planActive (s : State) (k : Kind) (u : Subject) (d : Option Int) : (report k u d s).planActive = s.planActive := by simp only [report]; split <;> rfl
@[simp] theorem report_freeze (s : State) (k : Kind) (u : Subject) (d : Option Int) : (report k u d s).freeze = s.freeze := by simp only [report]; split <;> rfl
@[simp] theorem report_timer (s : State) (k : Kind) (u : Subject) (d : Option Int) : (report k u d s).timer = s.timer := by simp only [report]; split <;> rfl
@[simp] theorem report_summary (s : State) (k : Kind) (u : Subject) (d : Option Int) : (report k u d s).summary = s.summary := by simp only [report]; split <;> rfl
@[simp] theorem report_leases (s : State) (k : Kind) (u : Subject) (d : Option Int) : (report k u d s).leases = s.leases := by simp only [report]; split <;> rfl
@[simp] theorem report_handover (s : State) (k : Kind) (u : Subject) (d : Option Int) : (report k u d s).handover = s.handover := by simp only [report]; split <;> rfl
@[simp] theorem report_feeds (s : State) (k : Kind) (u : Subject) (d : Option Int) : (report k u d s).feeds = s.feeds := by simp only [report]; split <;> rfl
@[simp] theorem report_activeFeed (s : State) (k : Kind) (u : Subject) (d : Option Int) : (report k u d s).activeFeed = s.activeFeed := by simp only [report]; split <;> rfl
@[simp] theorem report_switch (s : State) (k : Kind) (u : Subject) (d : Option Int) : (report k u d s).switch = s.switch := by simp only [report]; split <;> rfl
@[simp] theorem report_startup (s : State) (k : Kind) (u : Subject) (d : Option Int) : (report k u d s).startup = s.startup := by simp only [report]; split <;> rfl
@[simp] theorem report_bothOpen (s : State) (k : Kind) (u : Subject) (d : Option Int) : (report k u d s).bothOpen = s.bothOpen := by simp only [report]; split <;> rfl
@[simp] theorem report_feedLock (s : State) (k : Kind) (u : Subject) (d : Option Int) : (report k u d s).feedLock = s.feedLock := by simp only [report]; split <;> rfl
@[simp] theorem report_drips (s : State) (k : Kind) (u : Subject) (d : Option Int) : (report k u d s).drips = s.drips := by simp only [report]; split <;> rfl
@[simp] theorem report_zones (s : State) (k : Kind) (u : Subject) (d : Option Int) : (report k u d s).zones = s.zones := by simp only [report]; split <;> rfl
@[simp] theorem report_mode (s : State) (k : Kind) (u : Subject) (d : Option Int) : (report k u d s).mode = s.mode := by simp only [report]; split <;> rfl
@[simp] theorem report_faultHold (s : State) (k : Kind) (u : Subject) (d : Option Int) : (report k u d s).faultHold = s.faultHold := by simp only [report]; split <;> rfl
@[simp] theorem report_park (s : State) (k : Kind) (u : Subject) (d : Option Int) : (report k u d s).park = s.park := by simp only [report]; split <;> rfl
@[simp] theorem report_store (s : State) (k : Kind) (u : Subject) (d : Option Int) : (report k u d s).store = s.store := by simp only [report]; split <;> rfl
@[simp] theorem report_params (s : State) (k : Kind) (u : Subject) (d : Option Int) : (report k u d s).params = s.params := by simp only [report]; split <;> rfl
@[simp] theorem report_eeprom (s : State) (k : Kind) (u : Subject) (d : Option Int) : (report k u d s).eeprom = s.eeprom := by simp only [report]; split <;> rfl
@[simp] theorem report_imageTorn (s : State) (k : Kind) (u : Subject) (d : Option Int) : (report k u d s).imageTorn = s.imageTorn := by simp only [report]; split <;> rfl
@[simp] theorem report_draws (s : State) (k : Kind) (u : Subject) (d : Option Int) : (report k u d s).draws = s.draws := by simp only [report]; split <;> rfl
@[simp] theorem report_entry (s : State) (k : Kind) (u : Subject) (d : Option Int) (c : BranchId) : (report k u d s).entry c = s.entry c := by simp only [report]; split <;> rfl
@[simp] theorem report_branch (s : State) (k : Kind) (u : Subject) (d : Option Int) (c : BranchId) : (report k u d s).branch c = s.branch c := by simp only [report]; split <;> rfl
@[simp] theorem report_measure (s : State) (k : Kind) (u : Subject) (d : Option Int) (c : BranchId) : (report k u d s).measure c = s.measure c := by simp only [report]; split <;> rfl
@[simp] theorem report_segment (s : State) (k : Kind) (u : Subject) (d : Option Int) (c : SegId) : (report k u d s).segment c = s.segment c := by simp only [report]; split <;> rfl
@[simp] theorem report_pendingPlan (s : State) (k : Kind) (u : Subject) (d : Option Int) (c : BranchId) : (report k u d s).pendingPlan c = s.pendingPlan c := by simp only [report]; split <;> rfl
@[simp] theorem report_activePlan (s : State) (k : Kind) (u : Subject) (d : Option Int) (c : BranchId) : (report k u d s).activePlan c = s.activePlan c := by simp only [report]; split <;> rfl
@[simp] theorem report_lease (s : State) (k : Kind) (u : Subject) (d : Option Int) (g : Feed) : (report k u d s).lease g = s.lease g := by simp only [report]; split <;> rfl
@[simp] theorem report_feed (s : State) (k : Kind) (u : Subject) (d : Option Int) (g : Feed) : (report k u d s).feed g = s.feed g := by simp only [report]; split <;> rfl
@[simp] theorem report_drip (s : State) (k : Kind) (u : Subject) (d : Option Int) (c : BranchId) : (report k u d s).drip c = s.drip c := by simp only [report]; split <;> rfl
@[simp] theorem report_zone (s : State) (k : Kind) (u : Subject) (d : Option Int) (c : SegId) : (report k u d s).zone c = s.zone c := by simp only [report]; split <;> rfl
@[simp] theorem report_uptime (s : State) (k : Kind) (u : Subject) (d : Option Int) : (report k u d s).uptime = s.uptime := by simp only [report]; split <;> rfl
@[simp] theorem report_running (s : State) (k : Kind) (u : Subject) (d : Option Int) : (report k u d s).running = s.running := by simp only [report]; split <;> rfl
@[simp] theorem report_held (s : State) (k : Kind) (u : Subject) (d : Option Int) : (report k u d s).held = s.held := by simp only [report]; split <;> rfl

/-! ### takeOrder -/

@[simp] theorem takeOrder_pending (s : State) (r : IsolationReason) (b : BranchId) : (takeOrder r b s).pending = s.pending := by simp only [takeOrder]; split <;> rfl
@[simp] theorem takeOrder_clock (s : State) (r : IsolationReason) (b : BranchId) : (takeOrder r b s).clock = s.clock := by simp only [takeOrder]; split <;> rfl
@[simp] theorem takeOrder_loading (s : State) (r : IsolationReason) (b : BranchId) : (takeOrder r b s).loading = s.loading := by simp only [takeOrder]; split <;> rfl
@[simp] theorem takeOrder_resetLow (s : State) (r : IsolationReason) (b : BranchId) : (takeOrder r b s).resetLow = s.resetLow := by simp only [takeOrder]; split <;> rfl
@[simp] theorem takeOrder_restartDue (s : State) (r : IsolationReason) (b : BranchId) : (takeOrder r b s).restartDue = s.restartDue := by simp only [takeOrder]; split <;> rfl
@[simp] theorem takeOrder_saveAborted (s : State) (r : IsolationReason) (b : BranchId) : (takeOrder r b s).saveAborted = s.saveAborted := by simp only [takeOrder]; split <;> rfl
@[simp] theorem takeOrder_ports (s : State) (r : IsolationReason) (b : BranchId) : (takeOrder r b s).ports = s.ports := by simp only [takeOrder]; split <;> rfl
@[simp] theorem takeOrder_map (s : State) (r : IsolationReason) (b : BranchId) : (takeOrder r b s).map = s.map := by simp only [takeOrder]; split <;> rfl
@[simp] theorem takeOrder_scanner (s : State) (r : IsolationReason) (b : BranchId) : (takeOrder r b s).scanner = s.scanner := by simp only [takeOrder]; split <;> rfl
@[simp] theorem takeOrder_measured (s : State) (r : IsolationReason) (b : BranchId) : (takeOrder r b s).measured = s.measured := by simp only [takeOrder]; split <;> rfl
@[simp] theorem takeOrder_segments (s : State) (r : IsolationReason) (b : BranchId) : (takeOrder r b s).segments = s.segments := by simp only [takeOrder]; split <;> rfl
@[simp] theorem takeOrder_head (s : State) (r : IsolationReason) (b : BranchId) : (takeOrder r b s).head = s.head := by simp only [takeOrder]; split <;> rfl
@[simp] theorem takeOrder_planPending (s : State) (r : IsolationReason) (b : BranchId) : (takeOrder r b s).planPending = s.planPending := by simp only [takeOrder]; split <;> rfl
@[simp] theorem takeOrder_planActive (s : State) (r : IsolationReason) (b : BranchId) : (takeOrder r b s).planActive = s.planActive := by simp only [takeOrder]; split <;> rfl
@[simp] theorem takeOrder_freeze (s : State) (r : IsolationReason) (b : BranchId) : (takeOrder r b s).freeze = s.freeze := by simp only [takeOrder]; split <;> rfl
@[simp] theorem takeOrder_timer (s : State) (r : IsolationReason) (b : BranchId) : (takeOrder r b s).timer = s.timer := by simp only [takeOrder]; split <;> rfl
@[simp] theorem takeOrder_summary (s : State) (r : IsolationReason) (b : BranchId) : (takeOrder r b s).summary = s.summary := by simp only [takeOrder]; split <;> rfl
@[simp] theorem takeOrder_leases (s : State) (r : IsolationReason) (b : BranchId) : (takeOrder r b s).leases = s.leases := by simp only [takeOrder]; split <;> rfl
@[simp] theorem takeOrder_handover (s : State) (r : IsolationReason) (b : BranchId) : (takeOrder r b s).handover = s.handover := by simp only [takeOrder]; split <;> rfl
@[simp] theorem takeOrder_feeds (s : State) (r : IsolationReason) (b : BranchId) : (takeOrder r b s).feeds = s.feeds := by simp only [takeOrder]; split <;> rfl
@[simp] theorem takeOrder_activeFeed (s : State) (r : IsolationReason) (b : BranchId) : (takeOrder r b s).activeFeed = s.activeFeed := by simp only [takeOrder]; split <;> rfl
@[simp] theorem takeOrder_switch (s : State) (r : IsolationReason) (b : BranchId) : (takeOrder r b s).switch = s.switch := by simp only [takeOrder]; split <;> rfl
@[simp] theorem takeOrder_startup (s : State) (r : IsolationReason) (b : BranchId) : (takeOrder r b s).startup = s.startup := by simp only [takeOrder]; split <;> rfl
@[simp] theorem takeOrder_bothOpen (s : State) (r : IsolationReason) (b : BranchId) : (takeOrder r b s).bothOpen = s.bothOpen := by simp only [takeOrder]; split <;> rfl
@[simp] theorem takeOrder_feedLock (s : State) (r : IsolationReason) (b : BranchId) : (takeOrder r b s).feedLock = s.feedLock := by simp only [takeOrder]; split <;> rfl
@[simp] theorem takeOrder_drips (s : State) (r : IsolationReason) (b : BranchId) : (takeOrder r b s).drips = s.drips := by simp only [takeOrder]; split <;> rfl
@[simp] theorem takeOrder_zones (s : State) (r : IsolationReason) (b : BranchId) : (takeOrder r b s).zones = s.zones := by simp only [takeOrder]; split <;> rfl
@[simp] theorem takeOrder_mode (s : State) (r : IsolationReason) (b : BranchId) : (takeOrder r b s).mode = s.mode := by simp only [takeOrder]; split <;> rfl
@[simp] theorem takeOrder_faultHold (s : State) (r : IsolationReason) (b : BranchId) : (takeOrder r b s).faultHold = s.faultHold := by simp only [takeOrder]; split <;> rfl
@[simp] theorem takeOrder_park (s : State) (r : IsolationReason) (b : BranchId) : (takeOrder r b s).park = s.park := by simp only [takeOrder]; split <;> rfl
@[simp] theorem takeOrder_incidents (s : State) (r : IsolationReason) (b : BranchId) : (takeOrder r b s).incidents = s.incidents := by simp only [takeOrder]; split <;> rfl
@[simp] theorem takeOrder_params (s : State) (r : IsolationReason) (b : BranchId) : (takeOrder r b s).params = s.params := by simp only [takeOrder]; split <;> rfl
@[simp] theorem takeOrder_eeprom (s : State) (r : IsolationReason) (b : BranchId) : (takeOrder r b s).eeprom = s.eeprom := by simp only [takeOrder]; split <;> rfl
@[simp] theorem takeOrder_imageTorn (s : State) (r : IsolationReason) (b : BranchId) : (takeOrder r b s).imageTorn = s.imageTorn := by simp only [takeOrder]; split <;> rfl
@[simp] theorem takeOrder_draws (s : State) (r : IsolationReason) (b : BranchId) : (takeOrder r b s).draws = s.draws := by simp only [takeOrder]; split <;> rfl
@[simp] theorem takeOrder_port (s : State) (r : IsolationReason) (b : BranchId) (p : Port) : (takeOrder r b s).port p = s.port p := by simp only [takeOrder]; split <;> rfl
@[simp] theorem takeOrder_entry (s : State) (r : IsolationReason) (b : BranchId) (c : BranchId) : (takeOrder r b s).entry c = s.entry c := by simp only [takeOrder]; split <;> rfl
@[simp] theorem takeOrder_measure (s : State) (r : IsolationReason) (b : BranchId) (c : BranchId) : (takeOrder r b s).measure c = s.measure c := by simp only [takeOrder]; split <;> rfl
@[simp] theorem takeOrder_segment (s : State) (r : IsolationReason) (b : BranchId) (c : SegId) : (takeOrder r b s).segment c = s.segment c := by simp only [takeOrder]; split <;> rfl
@[simp] theorem takeOrder_pendingPlan (s : State) (r : IsolationReason) (b : BranchId) (c : BranchId) : (takeOrder r b s).pendingPlan c = s.pendingPlan c := by simp only [takeOrder]; split <;> rfl
@[simp] theorem takeOrder_activePlan (s : State) (r : IsolationReason) (b : BranchId) (c : BranchId) : (takeOrder r b s).activePlan c = s.activePlan c := by simp only [takeOrder]; split <;> rfl
@[simp] theorem takeOrder_lease (s : State) (r : IsolationReason) (b : BranchId) (g : Feed) : (takeOrder r b s).lease g = s.lease g := by simp only [takeOrder]; split <;> rfl
@[simp] theorem takeOrder_feed (s : State) (r : IsolationReason) (b : BranchId) (g : Feed) : (takeOrder r b s).feed g = s.feed g := by simp only [takeOrder]; split <;> rfl
@[simp] theorem takeOrder_drip (s : State) (r : IsolationReason) (b : BranchId) (c : BranchId) : (takeOrder r b s).drip c = s.drip c := by simp only [takeOrder]; split <;> rfl
@[simp] theorem takeOrder_zone (s : State) (r : IsolationReason) (b : BranchId) (c : SegId) : (takeOrder r b s).zone c = s.zone c := by simp only [takeOrder]; split <;> rfl
@[simp] theorem takeOrder_uptime (s : State) (r : IsolationReason) (b : BranchId) : (takeOrder r b s).uptime = s.uptime := by simp only [takeOrder]; split <;> rfl
@[simp] theorem takeOrder_running (s : State) (r : IsolationReason) (b : BranchId) : (takeOrder r b s).running = s.running := by simp only [takeOrder]; split <;> rfl
@[simp] theorem takeOrder_held (s : State) (r : IsolationReason) (b : BranchId) : (takeOrder r b s).held = s.held := by simp only [takeOrder]; split <;> rfl

/-! ### isolate -/

@[simp] theorem isolate_pending (s : State) (r : IsolationReason) (b : BranchId) : (isolate r b s).pending = s.pending := by simp only [isolate]; split <;> simp
@[simp] theorem isolate_clock (s : State) (r : IsolationReason) (b : BranchId) : (isolate r b s).clock = s.clock := by simp only [isolate]; split <;> simp
@[simp] theorem isolate_loading (s : State) (r : IsolationReason) (b : BranchId) : (isolate r b s).loading = s.loading := by simp only [isolate]; split <;> simp
@[simp] theorem isolate_resetLow (s : State) (r : IsolationReason) (b : BranchId) : (isolate r b s).resetLow = s.resetLow := by simp only [isolate]; split <;> simp
@[simp] theorem isolate_restartDue (s : State) (r : IsolationReason) (b : BranchId) : (isolate r b s).restartDue = s.restartDue := by simp only [isolate]; split <;> simp
@[simp] theorem isolate_saveAborted (s : State) (r : IsolationReason) (b : BranchId) : (isolate r b s).saveAborted = s.saveAborted := by simp only [isolate]; split <;> simp
@[simp] theorem isolate_map (s : State) (r : IsolationReason) (b : BranchId) : (isolate r b s).map = s.map := by simp only [isolate]; split <;> simp
@[simp] theorem isolate_scanner (s : State) (r : IsolationReason) (b : BranchId) : (isolate r b s).scanner = s.scanner := by simp only [isolate]; split <;> simp
@[simp] theorem isolate_measured (s : State) (r : IsolationReason) (b : BranchId) : (isolate r b s).measured = s.measured := by simp only [isolate]; split <;> simp
@[simp] theorem isolate_segments (s : State) (r : IsolationReason) (b : BranchId) : (isolate r b s).segments = s.segments := by simp only [isolate]; split <;> simp
@[simp] theorem isolate_head (s : State) (r : IsolationReason) (b : BranchId) : (isolate r b s).head = s.head := by simp only [isolate]; split <;> simp
@[simp] theorem isolate_planPending (s : State) (r : IsolationReason) (b : BranchId) : (isolate r b s).planPending = s.planPending := by simp only [isolate]; split <;> simp
@[simp] theorem isolate_planActive (s : State) (r : IsolationReason) (b : BranchId) : (isolate r b s).planActive = s.planActive := by simp only [isolate]; split <;> simp
@[simp] theorem isolate_freeze (s : State) (r : IsolationReason) (b : BranchId) : (isolate r b s).freeze = s.freeze := by simp only [isolate]; split <;> simp
@[simp] theorem isolate_timer (s : State) (r : IsolationReason) (b : BranchId) : (isolate r b s).timer = s.timer := by simp only [isolate]; split <;> simp
@[simp] theorem isolate_summary (s : State) (r : IsolationReason) (b : BranchId) : (isolate r b s).summary = s.summary := by simp only [isolate]; split <;> simp
@[simp] theorem isolate_leases (s : State) (r : IsolationReason) (b : BranchId) : (isolate r b s).leases = s.leases := by simp only [isolate]; split <;> simp
@[simp] theorem isolate_handover (s : State) (r : IsolationReason) (b : BranchId) : (isolate r b s).handover = s.handover := by simp only [isolate]; split <;> simp
@[simp] theorem isolate_feeds (s : State) (r : IsolationReason) (b : BranchId) : (isolate r b s).feeds = s.feeds := by simp only [isolate]; split <;> simp
@[simp] theorem isolate_activeFeed (s : State) (r : IsolationReason) (b : BranchId) : (isolate r b s).activeFeed = s.activeFeed := by simp only [isolate]; split <;> simp
@[simp] theorem isolate_switch (s : State) (r : IsolationReason) (b : BranchId) : (isolate r b s).switch = s.switch := by simp only [isolate]; split <;> simp
@[simp] theorem isolate_startup (s : State) (r : IsolationReason) (b : BranchId) : (isolate r b s).startup = s.startup := by simp only [isolate]; split <;> simp
@[simp] theorem isolate_bothOpen (s : State) (r : IsolationReason) (b : BranchId) : (isolate r b s).bothOpen = s.bothOpen := by simp only [isolate]; split <;> simp
@[simp] theorem isolate_feedLock (s : State) (r : IsolationReason) (b : BranchId) : (isolate r b s).feedLock = s.feedLock := by simp only [isolate]; split <;> simp
@[simp] theorem isolate_drips (s : State) (r : IsolationReason) (b : BranchId) : (isolate r b s).drips = s.drips := by simp only [isolate]; split <;> simp
@[simp] theorem isolate_zones (s : State) (r : IsolationReason) (b : BranchId) : (isolate r b s).zones = s.zones := by simp only [isolate]; split <;> simp
@[simp] theorem isolate_mode (s : State) (r : IsolationReason) (b : BranchId) : (isolate r b s).mode = s.mode := by simp only [isolate]; split <;> simp
@[simp] theorem isolate_faultHold (s : State) (r : IsolationReason) (b : BranchId) : (isolate r b s).faultHold = s.faultHold := by simp only [isolate]; split <;> simp
@[simp] theorem isolate_park (s : State) (r : IsolationReason) (b : BranchId) : (isolate r b s).park = s.park := by simp only [isolate]; split <;> simp
@[simp] theorem isolate_incidents (s : State) (r : IsolationReason) (b : BranchId) : (isolate r b s).incidents = s.incidents := by simp only [isolate]; split <;> simp
@[simp] theorem isolate_params (s : State) (r : IsolationReason) (b : BranchId) : (isolate r b s).params = s.params := by simp only [isolate]; split <;> simp
@[simp] theorem isolate_eeprom (s : State) (r : IsolationReason) (b : BranchId) : (isolate r b s).eeprom = s.eeprom := by simp only [isolate]; split <;> simp
@[simp] theorem isolate_imageTorn (s : State) (r : IsolationReason) (b : BranchId) : (isolate r b s).imageTorn = s.imageTorn := by simp only [isolate]; split <;> simp
@[simp] theorem isolate_draws (s : State) (r : IsolationReason) (b : BranchId) : (isolate r b s).draws = s.draws := by simp only [isolate]; split <;> simp
@[simp] theorem isolate_entry (s : State) (r : IsolationReason) (b : BranchId) (c : BranchId) : (isolate r b s).entry c = s.entry c := by simp only [isolate]; split <;> simp
@[simp] theorem isolate_measure (s : State) (r : IsolationReason) (b : BranchId) (c : BranchId) : (isolate r b s).measure c = s.measure c := by simp only [isolate]; split <;> simp
@[simp] theorem isolate_segment (s : State) (r : IsolationReason) (b : BranchId) (c : SegId) : (isolate r b s).segment c = s.segment c := by simp only [isolate]; split <;> simp
@[simp] theorem isolate_pendingPlan (s : State) (r : IsolationReason) (b : BranchId) (c : BranchId) : (isolate r b s).pendingPlan c = s.pendingPlan c := by simp only [isolate]; split <;> simp
@[simp] theorem isolate_activePlan (s : State) (r : IsolationReason) (b : BranchId) (c : BranchId) : (isolate r b s).activePlan c = s.activePlan c := by simp only [isolate]; split <;> simp
@[simp] theorem isolate_lease (s : State) (r : IsolationReason) (b : BranchId) (g : Feed) : (isolate r b s).lease g = s.lease g := by simp only [isolate]; split <;> simp
@[simp] theorem isolate_feed (s : State) (r : IsolationReason) (b : BranchId) (g : Feed) : (isolate r b s).feed g = s.feed g := by simp only [isolate]; split <;> simp
@[simp] theorem isolate_drip (s : State) (r : IsolationReason) (b : BranchId) (c : BranchId) : (isolate r b s).drip c = s.drip c := by simp only [isolate]; split <;> simp
@[simp] theorem isolate_zone (s : State) (r : IsolationReason) (b : BranchId) (c : SegId) : (isolate r b s).zone c = s.zone c := by simp only [isolate]; split <;> simp
@[simp] theorem isolate_uptime (s : State) (r : IsolationReason) (b : BranchId) : (isolate r b s).uptime = s.uptime := by simp only [isolate]; split <;> simp
@[simp] theorem isolate_running (s : State) (r : IsolationReason) (b : BranchId) : (isolate r b s).running = s.running := by simp only [isolate]; split <;> simp
@[simp] theorem isolate_held (s : State) (r : IsolationReason) (b : BranchId) : (isolate r b s).held = s.held := by simp only [isolate]; split <;> simp

/-! ### State.elapseBefore -/

@[simp] theorem State.elapseBefore_pending (s : State) (ms : Nat) : (s.elapseBefore ms).pending = s.pending := by
  rw [State.elapseBefore_sameButTime s ms]
@[simp] theorem State.elapseBefore_loading (s : State) (ms : Nat) : (s.elapseBefore ms).loading = s.loading := by
  rw [State.elapseBefore_sameButTime s ms]
@[simp] theorem State.elapseBefore_resetLow (s : State) (ms : Nat) : (s.elapseBefore ms).resetLow = s.resetLow := by
  rw [State.elapseBefore_sameButTime s ms]
@[simp] theorem State.elapseBefore_restartDue (s : State) (ms : Nat) : (s.elapseBefore ms).restartDue = s.restartDue := by
  rw [State.elapseBefore_sameButTime s ms]
@[simp] theorem State.elapseBefore_saveAborted (s : State) (ms : Nat) : (s.elapseBefore ms).saveAborted = s.saveAborted := by
  rw [State.elapseBefore_sameButTime s ms]
@[simp] theorem State.elapseBefore_map (s : State) (ms : Nat) : (s.elapseBefore ms).map = s.map := by
  rw [State.elapseBefore_sameButTime s ms]
@[simp] theorem State.elapseBefore_scanner (s : State) (ms : Nat) : (s.elapseBefore ms).scanner = s.scanner := by
  rw [State.elapseBefore_sameButTime s ms]
@[simp] theorem State.elapseBefore_measured (s : State) (ms : Nat) : (s.elapseBefore ms).measured = s.measured := by
  rw [State.elapseBefore_sameButTime s ms]
@[simp] theorem State.elapseBefore_segments (s : State) (ms : Nat) : (s.elapseBefore ms).segments = s.segments := by
  rw [State.elapseBefore_sameButTime s ms]
@[simp] theorem State.elapseBefore_head (s : State) (ms : Nat) : (s.elapseBefore ms).head = s.head := by
  rw [State.elapseBefore_sameButTime s ms]
@[simp] theorem State.elapseBefore_planPending (s : State) (ms : Nat) : (s.elapseBefore ms).planPending = s.planPending := by
  rw [State.elapseBefore_sameButTime s ms]
@[simp] theorem State.elapseBefore_planActive (s : State) (ms : Nat) : (s.elapseBefore ms).planActive = s.planActive := by
  rw [State.elapseBefore_sameButTime s ms]
@[simp] theorem State.elapseBefore_timer (s : State) (ms : Nat) : (s.elapseBefore ms).timer = s.timer := by
  rw [State.elapseBefore_sameButTime s ms]
@[simp] theorem State.elapseBefore_summary (s : State) (ms : Nat) : (s.elapseBefore ms).summary = s.summary := by
  rw [State.elapseBefore_sameButTime s ms]
@[simp] theorem State.elapseBefore_activeFeed (s : State) (ms : Nat) : (s.elapseBefore ms).activeFeed = s.activeFeed := by
  rw [State.elapseBefore_sameButTime s ms]
@[simp] theorem State.elapseBefore_feedLock (s : State) (ms : Nat) : (s.elapseBefore ms).feedLock = s.feedLock := by
  rw [State.elapseBefore_sameButTime s ms]
@[simp] theorem State.elapseBefore_drips (s : State) (ms : Nat) : (s.elapseBefore ms).drips = s.drips := by
  rw [State.elapseBefore_sameButTime s ms]
@[simp] theorem State.elapseBefore_mode (s : State) (ms : Nat) : (s.elapseBefore ms).mode = s.mode := by
  rw [State.elapseBefore_sameButTime s ms]
@[simp] theorem State.elapseBefore_faultHold (s : State) (ms : Nat) : (s.elapseBefore ms).faultHold = s.faultHold := by
  rw [State.elapseBefore_sameButTime s ms]
@[simp] theorem State.elapseBefore_params (s : State) (ms : Nat) : (s.elapseBefore ms).params = s.params := by
  rw [State.elapseBefore_sameButTime s ms]
@[simp] theorem State.elapseBefore_eeprom (s : State) (ms : Nat) : (s.elapseBefore ms).eeprom = s.eeprom := by
  rw [State.elapseBefore_sameButTime s ms]
@[simp] theorem State.elapseBefore_imageTorn (s : State) (ms : Nat) : (s.elapseBefore ms).imageTorn = s.imageTorn := by
  rw [State.elapseBefore_sameButTime s ms]
@[simp] theorem State.elapseBefore_entry (s : State) (ms : Nat) (c : BranchId) : (s.elapseBefore ms).entry c = s.entry c := by
  simp only [State.entry, State.elapseBefore_map]
@[simp] theorem State.elapseBefore_measure (s : State) (ms : Nat) (c : BranchId) : (s.elapseBefore ms).measure c = s.measure c := by
  simp only [State.measure, State.elapseBefore_measured]
@[simp] theorem State.elapseBefore_segment (s : State) (ms : Nat) (c : SegId) : (s.elapseBefore ms).segment c = s.segment c := by
  simp only [State.segment, State.elapseBefore_segments]
@[simp] theorem State.elapseBefore_pendingPlan (s : State) (ms : Nat) (c : BranchId) : (s.elapseBefore ms).pendingPlan c = s.pendingPlan c := by
  simp only [State.pendingPlan, State.elapseBefore_planPending]
@[simp] theorem State.elapseBefore_activePlan (s : State) (ms : Nat) (c : BranchId) : (s.elapseBefore ms).activePlan c = s.activePlan c := by
  simp only [State.activePlan, State.elapseBefore_planActive]
@[simp] theorem State.elapseBefore_drip (s : State) (ms : Nat) (c : BranchId) : (s.elapseBefore ms).drip c = s.drip c := by
  simp only [State.drip, State.elapseBefore_drips]
@[simp] theorem State.elapseBefore_running (s : State) (ms : Nat) : (s.elapseBefore ms).running = s.running := by
  simp only [State.running, State.elapseBefore_loading, State.elapseBefore_resetLow]
@[simp] theorem State.elapseBefore_held (s : State) (ms : Nat) : (s.elapseBefore ms).held = s.held := by
  simp only [State.held, State.elapseBefore_loading, State.elapseBefore_resetLow]

/-! ### State.elapse -/

@[simp] theorem State.elapse_pending (s : State) (ms : Nat) : (s.elapse ms).pending = s.pending := by
  rw [State.elapse_sameButTime s ms]
@[simp] theorem State.elapse_loading (s : State) (ms : Nat) : (s.elapse ms).loading = s.loading := by
  rw [State.elapse_sameButTime s ms]
@[simp] theorem State.elapse_resetLow (s : State) (ms : Nat) : (s.elapse ms).resetLow = s.resetLow := by
  rw [State.elapse_sameButTime s ms]
@[simp] theorem State.elapse_restartDue (s : State) (ms : Nat) : (s.elapse ms).restartDue = s.restartDue := by
  rw [State.elapse_sameButTime s ms]
@[simp] theorem State.elapse_saveAborted (s : State) (ms : Nat) : (s.elapse ms).saveAborted = s.saveAborted := by
  rw [State.elapse_sameButTime s ms]
@[simp] theorem State.elapse_map (s : State) (ms : Nat) : (s.elapse ms).map = s.map := by
  rw [State.elapse_sameButTime s ms]
@[simp] theorem State.elapse_scanner (s : State) (ms : Nat) : (s.elapse ms).scanner = s.scanner := by
  rw [State.elapse_sameButTime s ms]
@[simp] theorem State.elapse_measured (s : State) (ms : Nat) : (s.elapse ms).measured = s.measured := by
  rw [State.elapse_sameButTime s ms]
@[simp] theorem State.elapse_segments (s : State) (ms : Nat) : (s.elapse ms).segments = s.segments := by
  rw [State.elapse_sameButTime s ms]
@[simp] theorem State.elapse_head (s : State) (ms : Nat) : (s.elapse ms).head = s.head := by
  rw [State.elapse_sameButTime s ms]
@[simp] theorem State.elapse_planPending (s : State) (ms : Nat) : (s.elapse ms).planPending = s.planPending := by
  rw [State.elapse_sameButTime s ms]
@[simp] theorem State.elapse_planActive (s : State) (ms : Nat) : (s.elapse ms).planActive = s.planActive := by
  rw [State.elapse_sameButTime s ms]
@[simp] theorem State.elapse_timer (s : State) (ms : Nat) : (s.elapse ms).timer = s.timer := by
  rw [State.elapse_sameButTime s ms]
@[simp] theorem State.elapse_summary (s : State) (ms : Nat) : (s.elapse ms).summary = s.summary := by
  rw [State.elapse_sameButTime s ms]
@[simp] theorem State.elapse_activeFeed (s : State) (ms : Nat) : (s.elapse ms).activeFeed = s.activeFeed := by
  rw [State.elapse_sameButTime s ms]
@[simp] theorem State.elapse_feedLock (s : State) (ms : Nat) : (s.elapse ms).feedLock = s.feedLock := by
  rw [State.elapse_sameButTime s ms]
@[simp] theorem State.elapse_drips (s : State) (ms : Nat) : (s.elapse ms).drips = s.drips := by
  rw [State.elapse_sameButTime s ms]
@[simp] theorem State.elapse_mode (s : State) (ms : Nat) : (s.elapse ms).mode = s.mode := by
  rw [State.elapse_sameButTime s ms]
@[simp] theorem State.elapse_faultHold (s : State) (ms : Nat) : (s.elapse ms).faultHold = s.faultHold := by
  rw [State.elapse_sameButTime s ms]
@[simp] theorem State.elapse_params (s : State) (ms : Nat) : (s.elapse ms).params = s.params := by
  rw [State.elapse_sameButTime s ms]
@[simp] theorem State.elapse_eeprom (s : State) (ms : Nat) : (s.elapse ms).eeprom = s.eeprom := by
  rw [State.elapse_sameButTime s ms]
@[simp] theorem State.elapse_imageTorn (s : State) (ms : Nat) : (s.elapse ms).imageTorn = s.imageTorn := by
  rw [State.elapse_sameButTime s ms]
@[simp] theorem State.elapse_entry (s : State) (ms : Nat) (c : BranchId) : (s.elapse ms).entry c = s.entry c := by
  simp only [State.entry, State.elapse_map]
@[simp] theorem State.elapse_measure (s : State) (ms : Nat) (c : BranchId) : (s.elapse ms).measure c = s.measure c := by
  simp only [State.measure, State.elapse_measured]
@[simp] theorem State.elapse_segment (s : State) (ms : Nat) (c : SegId) : (s.elapse ms).segment c = s.segment c := by
  simp only [State.segment, State.elapse_segments]
@[simp] theorem State.elapse_pendingPlan (s : State) (ms : Nat) (c : BranchId) : (s.elapse ms).pendingPlan c = s.pendingPlan c := by
  simp only [State.pendingPlan, State.elapse_planPending]
@[simp] theorem State.elapse_activePlan (s : State) (ms : Nat) (c : BranchId) : (s.elapse ms).activePlan c = s.activePlan c := by
  simp only [State.activePlan, State.elapse_planActive]
@[simp] theorem State.elapse_drip (s : State) (ms : Nat) (c : BranchId) : (s.elapse ms).drip c = s.drip c := by
  simp only [State.drip, State.elapse_drips]
@[simp] theorem State.elapse_running (s : State) (ms : Nat) : (s.elapse ms).running = s.running := by
  simp only [State.running, State.elapse_loading, State.elapse_resetLow]
@[simp] theorem State.elapse_held (s : State) (ms : Nat) : (s.elapse ms).held = s.held := by
  simp only [State.held, State.elapse_loading, State.elapse_resetLow]

/-! ### The later of two writes of one record stands -/

@[simp] theorem put_put {α : Type} {n : Nat} (v : Vector α n) (i : Fin n) (x y : α) : put (put v i x) i y = put v i y := by
  ext k hk
  simp only [put, Vector.getElem_set]
  split <;> rfl

@[simp] theorem State.setPort_setPort (s : State) (p : Port) (x y : LinkPort) : (s.setPort p x).setPort p y = s.setPort p y := by
  simp [State.setPort]

@[simp] theorem State.setEntry_setEntry (s : State) (b : BranchId) (x y : MapEntry) : (s.setEntry b x).setEntry b y = s.setEntry b y := by
  simp [State.setEntry]

@[simp] theorem State.setBranch_setBranch (s : State) (b : BranchId) (x y : Branch) : (s.setBranch b x).setBranch b y = s.setBranch b y := by
  simp [State.setBranch]

@[simp] theorem State.setMeasure_setMeasure (s : State) (b : BranchId) (x y : Measurement) : (s.setMeasure b x).setMeasure b y = s.setMeasure b y := by
  simp [State.setMeasure]

@[simp] theorem State.setSegment_setSegment (s : State) (z : SegId) (x y : SegmentRecord) : (s.setSegment z x).setSegment z y = s.setSegment z y := by
  simp [State.setSegment]

@[simp] theorem State.setPendingPlan_setPendingPlan (s : State) (b : BranchId) (x y : PlanEntry) : (s.setPendingPlan b x).setPendingPlan b y = s.setPendingPlan b y := by
  simp [State.setPendingPlan]

@[simp] theorem State.setLease_setLease (s : State) (f : Feed) (x y : Option Lease) : (s.setLease f x).setLease f y = s.setLease f y := by
  simp [State.setLease]

@[simp] theorem State.setFeed_setFeed (s : State) (f : Feed) (x y : FeedRecord) : (s.setFeed f x).setFeed f y = s.setFeed f y := by
  simp [State.setFeed]

@[simp] theorem State.setDrip_setDrip (s : State) (b : BranchId) (x y : Accumulator) : (s.setDrip b x).setDrip b y = s.setDrip b y := by
  simp [State.setDrip]

@[simp] theorem State.setZone_setZone (s : State) (z : SegId) (x y : Zone) : (s.setZone z x).setZone z y = s.setZone z y := by
  simp [State.setZone]

end Sys2Proof.Machine
end

