-- ==== Sys2Proof/Laws/Ops.lean ====
section
/-! SUPPORT. For each shared operation, once, everything it can do: taking a request, taking an event, a step, the passing
of time, a report, an isolation order, and the bytes of the EEPROM. -/

namespace Sys2Proof.Machine

open Sys2Proof

/-! ### Taking a request, an event, a step -/

/-- Everything a request can do. -/
theorem request_cases {p : Port} {code : Byte} {lengths : List Nat} {allowed : List Port} {body : List Byte} {h : Handler}
    {s t : State} (hr : request p code lengths allowed body h s = .next t) :
    (s.takesFrame p = false ∧ t = s) ∨
    (s.takesFrame p = true ∧ ∃ st, (s.loading = true → st = .busy) ∧ t = s.answering p code (Reply.plain st)) ∨
    (s.takesFrame p = true ∧ s.loading = false ∧ body.length ∈ lengths ∧ p ∈ allowed ∧
      t = (h s).2.answering p code (h s).1) := by
  simp only [request, Host.Outcome.next.injEq] at hr
  cases h1 : s.takesFrame p
  · simp only [h1, Bool.not_false, if_true] at hr; exact .inl ⟨rfl, hr.symm⟩
  simp only [h1, Bool.not_true, Bool.false_eq_true, if_false] at hr
  cases h2 : s.loading
  · simp only [h2, Bool.false_eq_true, if_false] at hr
    by_cases h3 : body.length ∉ lengths
    · rw [if_pos h3] at hr; exact .inr (.inl ⟨rfl, _, by simp, hr.symm⟩)
    rw [if_neg h3] at hr
    by_cases h4 : p ∉ allowed
    · rw [if_pos h4] at hr; exact .inr (.inl ⟨rfl, _, by simp, hr.symm⟩)
    rw [if_neg h4] at hr
    exact .inr (.inr ⟨rfl, rfl, not_not.mp h3, not_not.mp h4, hr.symm⟩)
  · simp only [h2, if_true] at hr
    exact .inr (.inl ⟨rfl, _, fun _ => rfl, hr.symm⟩)

/-- A request the part is ready for, of an allowed length and port, is handed to its handler. -/
theorem request_handled {p : Port} {code : Byte} {lengths : List Nat} {allowed : List Port} {body : List Byte} {h : Handler}
    {s : State} (hr : Ready s p) (hl : body.length ∈ lengths) (hp : p ∈ allowed) :
    request p code lengths allowed body h s = .next ((h s).2.answering p code (h s).1) := by
  simp [request, hr.1, hr.2, hl, hp]

/-- Everything an event can do. -/
theorem event_cases {after : Nat} {f : State → State} {s t : State} (h : event after f s = .next t) :
    ((s.elapse after).running = true ∧ t = f (s.elapse after)) ∨
    ((s.elapse after).running = false ∧ t = s.elapse after) := by
  simp only [event, Host.Outcome.next.injEq] at h
  cases hr : (s.elapse after).running
  · simp only [hr, Bool.false_eq_true, if_false] at h; exact .inr ⟨rfl, h.symm⟩
  · simp only [hr, if_true] at h; exact .inl ⟨rfl, h.symm⟩

/-- An event taken while the part runs. -/
theorem event_taken {after : Nat} {f : State → State} {s : State} (h : s.running = true) :
    event after f s = .next (f (s.elapse after)) := by
  simp [event, h]

/-- Everything a line event can do. -/
theorem lineEvent_cases {after : Nat} {f : State → State} {s t : State} (h : lineEvent after f s = .next t) :
    t = f (s.elapse after) ∨ t = s.elapse after := by
  simp only [lineEvent, Host.Outcome.next.injEq] at h
  split at h
  · exact .inr h.symm
  · exact .inl h.symm

/-- Everything a step can do. -/
theorem step_cases {s t : State} (h : step s = .next t) :
    (∃ c rest, s.pending = c :: rest ∧ exec c { s with pending := rest } = .next t) ∨
    (s.pending = [] ∧ ∃ c, exec c { s with draws := s.draws + 1 } = .next t) ∨
    (s.pending = [] ∧ t = s.elapse 1) := by
  unfold step at h
  split at h
  · rename_i c rest hp; exact .inl ⟨c, rest, hp, h⟩
  · rename_i hp
    unfold idle at h
    split at h
    · exact .inr (.inl ⟨hp, _, h⟩)
    · cases h; exact .inr (.inr ⟨hp, rfl⟩)

/-- Everything a lease's event can do. -/
theorem leaseEvent_cases {after : Nat} {f : State → State} {s t : State} (h : leaseEvent after f s = .next t) :
    (s.running = true ∧ t = takeLeaseMarks (f (s.elapseBefore after))) ∨
    (s.running = false ∧ t = { s with clock := s.clock + after }) := by
  simp only [leaseEvent, Host.Outcome.next.injEq, State.elapseBefore_running] at h
  cases hr : s.running
  · simp only [hr, Bool.false_eq_true, if_false, State.elapseBefore] at h; exact .inr ⟨rfl, h.symm⟩
  · simp only [hr, if_true] at h; exact .inl ⟨rfl, h.symm⟩

/-! ### Time -/

/-- What time and the lease marks keep, a passage of time keeps. -/
theorem State.elapse_induction {P : State → Prop} (clock : ∀ s n, P s → P { s with clock := n })
    (time : ∀ s ms, P s → P (s.passTime ms)) (marks : ∀ s, P s → P (takeLeaseMarks s)) {s : State} (ms : Nat) (h : P s) :
    P (s.elapseBefore ms) ∧ P (s.elapse ms) := by
  have hb : P (s.elapseBefore ms) := by
    unfold State.elapseBefore
    split
    · exact passing_induction time marks _ _ h
    · exact clock _ _ h
  refine ⟨hb, ?_⟩
  unfold State.elapse
  split
  · exact marks _ hb
  · exact hb

/-- A passage of time in a part that does not run moves the clock and nothing else. -/
theorem State.elapse_stopped {s : State} (h : s.running = false) (ms : Nat) :
    s.elapse ms = { s with clock := s.clock + ms } := by
  simp [State.elapse, State.elapseBefore, h]

/-- Without a lease mark in it, a passage of time is a plain one. -/
theorem State.elapse_plain {s : State} (h : s.running = true) {ms : Nat} (hm : ∀ d, nextLeaseMark s = some d → ms < d) :
    s.elapse ms = takeLeaseMarks (s.passTime ms) := by
  have : passing 6 ms s = s.passTime ms := by
    unfold passing
    split
    · rename_i d hd; rw [if_neg (by have := hm d hd; omega)]
    · rfl
  simp [State.elapse, State.elapseBefore, h, this]

@[simp] theorem takeLeaseMarks_clock (s : State) : (takeLeaseMarks s).clock = s.clock := by
  have one : ∀ (f : Feed) (t : State), (takeLeaseMark f t).clock = t.clock := by
    intro f t
    unfold takeLeaseMark
    split
    · rename_i l _
      split
      · cases l.phase
        · exact rfl
        · simp only [reachMark, reachT2, makeHandoverTest]; split <;> rfl
        · simp only [reachMark, lapse]; split
          · exact report_clock _ _ _ _
          · rfl
        · rfl
      · rfl
    · rfl
  unfold takeLeaseMarks
  split
  · dsimp only; split <;> rw [one, one]
  · rw [one, one]

theorem passing_clock (n ms : Nat) (s : State) : (passing n ms s).clock = s.clock + ms := by
  induction n generalizing ms s with
  | zero => rfl
  | succ n ih =>
    unfold passing
    split
    · split
      · rw [ih, takeLeaseMarks_clock]; show s.clock + _ + _ = _; omega
      · rfl
    · rfl

@[simp] theorem State.elapse_clock (s : State) (ms : Nat) : (s.elapse ms).clock = s.clock + ms := by
  unfold State.elapse State.elapseBefore
  split
  · rw [takeLeaseMarks_clock, passing_clock]
  · rfl

theorem State.passTime_branch (s : State) (ms : Nat) (b : BranchId) :
    (s.passTime ms).branch b = (s.branch b).elapse ms (s.mode != .hold) := by simp [State.passTime, State.branch]

theorem State.passTime_lease (s : State) (ms : Nat) (f : Feed) :
    (s.passTime ms).lease f = (s.lease f).map (Lease.elapse ms) := by simp [State.passTime, State.lease]

theorem State.passTime_feed (s : State) (ms : Nat) (f : Feed) :
    (s.passTime ms).feed f = (s.feed f).elapse ms s.params.failoverWindow := by simp [State.passTime, State.feed]

theorem State.passTime_zone (s : State) (ms : Nat) (z : SegId) : (s.passTime ms).zone z = (s.zone z).elapse ms := by
  simp [State.passTime, State.zone]

@[simp] theorem takeLeaseMarks_store (s : State) : (takeLeaseMarks s).store = s.store := by
  have one : ∀ (f : Feed) (t : State), (takeLeaseMark f t).store = t.store := by
    intro f t
    unfold takeLeaseMark
    split
    · rename_i l _
      split
      · cases l.phase
        · exact rfl
        · simp only [reachMark, reachT2, makeHandoverTest]; split <;> rfl
        · simp only [reachMark, lapse]; split
          · exact report_store _ _ _ _
          · rfl
        · rfl
      · rfl
    · rfl
  unfold takeLeaseMarks
  split
  · dsimp only; split <;> rw [one, one]
  · rw [one, one]

theorem State.elapse_store (s : State) (ms : Nat) :
    (s.elapse ms).store.save = s.store.save ∧ (s.elapse ms).store.queue = s.store.queue ∧
      (s.elapse ms).store.write = s.store.write := by
  rw [State.elapse_sameButTime s ms]; exact ⟨rfl, rfl, rfl⟩

/-- The age of a lease that has not reached its mark does not reach it before the time that `untilMark` gives. -/
theorem Lease.elapse_below (l : Lease) (ms m : Nat) (hm : l.mark = some m) (h : ms < (m - l.age.steps) * 100 - l.age.part) :
    (l.elapse ms).age.steps < m := by
  have hp : l.phase ≠ .lapsed := by intro e; simp [Lease.mark, e] at hm
  simp only [Lease.elapse, if_neg hp, Timer.up]
  omega

/-- The handover test leaves the leases alone (R111). -/
@[simp] theorem makeHandoverTest_lease (f g : Feed) (s : State) : (makeHandoverTest f s).lease g = s.lease g := by
  unfold makeHandoverTest; dsimp only; split <;> rfl

/-- A lease after its mark, where its age has reached it. -/
def Lease.afterMark (l : Lease) : Lease :=
  if l.markReached then
    { l with phase := match l.phase with
      | .bound => .renewDue
      | .renewDue => .expiring
      | .expiring | .lapsed => .lapsed }
  else l

/-- What a mark does to the leases: its own moves on where its age has reached the mark (R109, R110, R112). -/
theorem takeLeaseMark_lease (f g : Feed) (s : State) :
    (takeLeaseMark f s).lease g = if g = f then (s.lease f).map Lease.afterMark else s.lease g := by
  unfold takeLeaseMark
  cases e : s.lease f with
  | none => by_cases hg : g = f <;> simp [hg, e]
  | some l =>
    by_cases hr : l.markReached = true
    · simp only [hr, if_true]
      obtain ⟨p, b, d, t1, t2, a⟩ := l
      cases p
      · by_cases hg : g = f <;> simp [hg, reachMark, reachT1, leasePhase, e, Lease.afterMark, hr]
      · simp only [reachMark, reachT2, makeHandoverTest_lease, leasePhase]
        by_cases hg : g = f <;> simp [hg, e, Lease.afterMark, hr]
      · simp only [reachMark, lapse, leasePhase]
        split <;> by_cases hg : g = f <;> simp [hg, e, Lease.afterMark, hr]
      · simp [Lease.markReached, Lease.mark] at hr
    · by_cases hg : g = f <;> simp [hg, e, hr, Lease.afterMark]

/-- What the two marks of a moment do to the leases, whichever comes first. -/
theorem takeLeaseMarks_lease (s : State) (g : Feed) : (takeLeaseMarks s).lease g = (s.lease g).map Lease.afterMark := by
  have draws (n : Nat) (h : Feed) : ({ s with draws := n } : State).lease h = s.lease h := rfl
  unfold takeLeaseMarks
  dsimp only
  split
  · split <;> cases g <;> simp [takeLeaseMark_lease, draws]
  · cases g <;> simp [takeLeaseMark_lease]

/-- A lease in order stays in order when time passes up to its next mark and the mark is then taken (R105). -/
theorem Lease.ordered_elapse {l : Lease} {ms : Nat} (h : l.ordered) (hm : ∀ d, l.untilMark = some d → ms ≤ d) :
    (l.elapse ms).afterMark.ordered := by
  obtain ⟨p, b, d, t1, t2, ⟨st, pa⟩⟩ := l
  cases p <;>
    simp [Lease.ordered, Lease.elapse, Lease.untilMark, Lease.mark, Timer.up, Lease.afterMark, Lease.markReached] at * <;>
    (try split) <;> simp_all <;> omega

/-- The marks still before a feed's lease. -/
def Lease.marksLeft (l : Option Lease) : Nat :=
  match l with
  | none => 0
  | some l => match l.phase with
    | .bound => 3
    | .renewDue => 2
    | .expiring => 1
    | .lapsed => 0

/-- The marks still before the two leases. -/
def marksLeft (s : State) : Nat := Lease.marksLeft (s.lease .a) + Lease.marksLeft (s.lease .b)

/-- A mark is reached when the time until it has passed. -/
theorem Lease.markReached_elapse (l : Lease) (d : Nat) (h : l.untilMark = some d) : (l.elapse d).markReached = true := by
  obtain ⟨p, b, du, t1, t2, ⟨st, pa⟩⟩ := l
  cases p <;> simp [Lease.untilMark, Lease.mark, Lease.markReached, Lease.elapse, Timer.up] at * <;> omega

theorem Lease.marksLeft_afterMark (l : Lease) :
    Lease.marksLeft (some l.afterMark) ≤ Lease.marksLeft (some l) ∧
      (l.markReached = true → Lease.marksLeft (some l.afterMark) < Lease.marksLeft (some l)) := by
  obtain ⟨p, b, du, t1, t2, ⟨st, pa⟩⟩ := l
  cases p <;> simp only [Lease.afterMark] <;> split <;> simp_all [Lease.marksLeft, Lease.markReached, Lease.mark]

theorem Lease.marksLeft_elapse (l : Lease) (d : Nat) : Lease.marksLeft (some (l.elapse d)) = Lease.marksLeft (some l) := rfl

/-- Taking the marks of the next moment that has one leaves fewer before the leases. -/
theorem marksLeft_lt (s : State) (d : Nat) (h : nextLeaseMark s = some d) :
    marksLeft (takeLeaseMarks (s.passTime d)) < marksLeft s := by
  unfold nextLeaseMark at h
  simp only [marksLeft, takeLeaseMarks_lease, State.passTime_lease]
  have key : ∀ f,
      let left := Lease.marksLeft (Option.map Lease.afterMark (Option.map (Lease.elapse d) (s.lease f)))
      left ≤ Lease.marksLeft (s.lease f) ∧
        ((s.lease f).bind Lease.untilMark = some d → left < Lease.marksLeft (s.lease f)) := by
    intro f
    cases e : s.lease f with
    | none => simp
    | some l =>
      have := Lease.marksLeft_afterMark (l.elapse d)
      rw [Lease.marksLeft_elapse] at this
      exact ⟨this.1, fun h => this.2 (l.markReached_elapse d h)⟩
  have ka := key .a; have kb := key .b
  split at h
  · rename_i x y h1 h2
    simp at h
    rw [h1] at ka; rw [h2] at kb
    have : x = d ∨ y = d := by omega
    rcases this with rfl | rfl
    · have := ka.2 rfl; omega
    · have := kb.2 rfl; omega
  · rename_i x h1 h2; have := ka.2 (by rw [h1]; exact h); omega
  · have := kb.2 h; omega

theorem nextLeaseMark_none (s : State) (h : marksLeft s = 0) : nextLeaseMark s = none := by
  have : ∀ f, Lease.marksLeft (s.lease f) = 0 → (s.lease f).bind Lease.untilMark = none := by
    intro f h
    cases e : s.lease f with
    | none => rfl
    | some l => obtain ⟨p, b, du, t1, t2, a⟩ := l; rw [e] at h; cases p <;> simp [Lease.marksLeft] at h; rfl
  unfold marksLeft at h
  simp [nextLeaseMark, this .a (by omega), this .b (by omega)]

/-- `passing` has steps enough with as many as there are marks left. -/
theorem passing_fuel (n m ms : Nat) (s : State) (h : marksLeft s ≤ n) (hm : marksLeft s ≤ m) :
    passing n ms s = passing m ms s := by
  induction n generalizing m ms s with
  | zero => cases m with
    | zero => rfl
    | succ m => simp [passing, nextLeaseMark_none s (by omega)]
  | succ n ih => cases m with
    | zero => simp [passing, nextLeaseMark_none s (by omega)]
    | succ m =>
      simp only [passing]
      split
      · rename_i d hd
        have := marksLeft_lt s d hd
        split
        · exact ih _ _ _ (by omega) (by omega)
        · rfl
      · rfl

/-- A remaining time never grows, and an age never falls. -/
theorem Timer.down_le (ms : Nat) (t : Timer) : (t.down ms).steps ≤ t.steps := by
  unfold Timer.down
  split
  · simp only; omega
  · exact Nat.zero_le _

/-- A time started at `n` steps has run out after `n` steps of 100 ms, and not a millisecond before. -/
theorem Timer.down_start (ms n : Nat) : ((Timer.start n).down ms).steps = 0 ↔ n * 100 ≤ ms := by
  unfold Timer.down Timer.start
  simp only [Nat.zero_add]
  split
  · simp only; omega
  · simp only [true_iff]; omega

/-! ### Reports and isolation orders -/

theorem report_incidents (s : State) (k : Kind) (u : Subject) (d : Option Int) :
    (report k u d s).incidents = (s.incidents.take s.uptime k u (d.map detailRange)).1 := by
  simp only [report]; split <;> rfl

/-- An isolation order takes its branch into ISOLATING, or does nothing. -/
theorem isolate_branch (s : State) (r : IsolationReason) (b c : BranchId) :
    (isolate r b s).branch c =
      if c = b ∧ orderTakes r (s.branch b).state = true then Branch.toIsolating r s.params.isolateWindow
      else s.branch c := by
  have hn : ∀ t : State, (notifyAll .branchChanged t).branch c = t.branch c := fun _ => rfl
  cases h : orderTakes r (s.branch b).state
  · simp [isolate, h]
  · have : (takeOrder r b s).branch c = if c = b then Branch.toIsolating r s.params.isolateWindow else s.branch c := by
      simp only [takeOrder]
      split
      · simp
      · simp
    simp [isolate, h, this]

/-! ### The EEPROM -/

theorem readByte_writeByte (mem : List Host.Cell) (x y : Nat) (v : Byte) (hw : memoryWf mem = true) :
    readByte (writeByte mem x v) y = if y = x then v else readByte mem y := by
  induction mem with
  | nil =>
    simp only [writeByte, readByte]
    split
    · rename_i h; split <;> simp_all [readByte]
    · simp only [readByte]; split <;> split <;> simp_all
  | cons c rest ih =>
    obtain ⟨a, w⟩ := c
    have hr : memoryWf rest = true := by
      cases rest with
      | nil => rfl
      | cons d ds => obtain ⟨b, u⟩ := d; simp only [memoryWf, Bool.and_eq_true] at hw; exact hw.2
    have habove : ∀ z ≤ a, readByte rest z = Config.erasedByte := by
      clear ih
      have key : ∀ (l : List Host.Cell) (a : Nat) (w : Byte), memoryWf ((a, w) :: l) = true →
          ∀ z ≤ a, readByte l z = Config.erasedByte := by
        intro l
        induction l with
        | nil => intro _ _ _ _ _; rfl
        | cons d ds ihl =>
          obtain ⟨b, u⟩ := d
          intro a w h z hz
          simp only [memoryWf, Bool.and_eq_true, decide_eq_true_eq] at h
          simp only [readByte]
          rw [if_neg (by omega)]
          exact ihl b u h.2 z (by omega)
      exact key rest a w hw
    simp only [writeByte]
    split
    · rename_i hxa
      split
      · rename_i hv
        simp only [readByte]
        by_cases hyx : y = x
        · subst hyx
          rw [if_neg (by omega), if_pos rfl, habove _ (by omega), hv]
        · simp [hyx]
      · simp only [readByte]
        by_cases hyx : y = x
        · simp [hyx]
        · simp [hyx, Ne.symm hyx]
    · split
      · rename_i hxa
        subst hxa
        split
        · rename_i hv
          simp only [readByte]
          by_cases hyx : y = x
          · subst hyx; rw [if_pos rfl, habove _ (by omega), hv]
          · rw [if_neg hyx, if_neg (Ne.symm hyx)]
        · simp only [readByte]
          by_cases hyx : y = x
          · simp [hyx]
          · simp [hyx, Ne.symm hyx]
      · rename_i h1 h2
        simp only [readByte]
        by_cases hay : a = y
        · rw [if_pos hay, if_neg (by omega), if_pos hay]
        · rw [if_neg hay, if_neg hay]; exact ih hr

/-- What the canonical form says of a list with one entry in front. -/
theorem memoryWf_cons (a : Nat) (v : Byte) (rest : List Host.Cell) :
    memoryWf ((a, v) :: rest) = true ↔
      a < Config.storeBytes ∧ v ≠ Config.erasedByte ∧ memoryWf rest = true ∧ ∀ c ∈ rest.head?, a < c.1 := by
  cases rest with
  | nil => simp [memoryWf]
  | cons d ds =>
    obtain ⟨b, w⟩ := d
    simp only [memoryWf, Bool.and_eq_true, decide_eq_true_eq, bne_iff_ne, List.head?_cons, Option.mem_def, Option.some.injEq,
      forall_eq']
    constructor
    · rintro ⟨⟨h1, h2⟩, h3⟩
      refine ⟨?_, h2, h3, h1⟩
      have : b < Config.storeBytes := by
        cases ds with
        | nil => simp only [memoryWf, Bool.and_eq_true, decide_eq_true_eq] at h3; exact h3.1
        | cons e es =>
          clear h2
          have key : ∀ (l : List Host.Cell) (b : Nat) (w : Byte), memoryWf ((b, w) :: l) = true → b < Config.storeBytes := by
            intro l
            induction l with
            | nil => intro b w h; simp only [memoryWf, Bool.and_eq_true, decide_eq_true_eq] at h; exact h.1
            | cons f fs ihl =>
              obtain ⟨g, u⟩ := f
              intro b w h
              simp only [memoryWf, Bool.and_eq_true, decide_eq_true_eq] at h
              have := ihl g u h.2; omega
          exact key _ _ _ h3
      omega
    · rintro ⟨_, h2, h3, h1⟩; exact ⟨⟨h1, h2⟩, h3⟩

theorem writeByte_head (mem : List Host.Cell) (x : Nat) (v : Byte) (a : Nat) (hx : a < x) (hh : ∀ c ∈ mem.head?, a < c.1)
    (hw : memoryWf mem = true) : ∀ c ∈ (writeByte mem x v).head?, a < c.1 := by
  cases mem with
  | nil => simp only [writeByte]; split <;> simp [hx]
  | cons d ds =>
    obtain ⟨b, w⟩ := d
    have hb : a < b := hh (b, w) (by simp)
    simp only [writeByte]
    split
    · split <;> simp [hb, hx]
    · split
      · split
        · intro c hc
          rw [memoryWf_cons] at hw
          have := hw.2.2.2 c hc
          omega
        · simp [hx]
      · simp [hb]

/-- A write keeps the canonical form. -/
theorem writeByte_wf (mem : List Host.Cell) (x : Nat) (v : Byte) (hx : x < Config.storeBytes) (hw : memoryWf mem = true) :
    memoryWf (writeByte mem x v) = true := by
  induction mem with
  | nil => simp only [writeByte]; split <;> simp_all [memoryWf]
  | cons d ds ih =>
    obtain ⟨a, w⟩ := d
    have hw' := (memoryWf_cons a w ds).mp hw
    simp only [writeByte]
    split
    · rename_i hxa
      split
      · exact hw
      · rename_i hv
        rw [memoryWf_cons]; exact ⟨hx, hv, hw, by simp [hxa]⟩
    · split
      · rename_i hxa
        subst hxa
        split
        · exact hw'.2.2.1
        · rename_i hv; rw [memoryWf_cons]; exact ⟨hx, hv, hw'.2.2.1, hw'.2.2.2⟩
      · rename_i h1 h2
        rw [memoryWf_cons]
        exact ⟨hw'.1, hw'.2.1, ih hw'.2.2.1, writeByte_head ds x v a (by omega) hw'.2.2.2 hw'.2.2.1⟩

/-- Writing consecutive bytes keeps the canonical form. -/
theorem writeBytes_wf (bs : List Byte) : ∀ (mem : List Host.Cell) (base : Nat), base + bs.length ≤ Config.storeBytes →
    memoryWf mem = true → memoryWf (writeBytes mem base bs) = true := by
  induction bs with
  | nil => intro mem base _ hw; exact hw
  | cons v rest ih =>
    intro mem base hb hw
    simp only [List.length_cons] at hb
    exact ih _ _ (by omega) (writeByte_wf mem base v (by omega) hw)

/-- Writing consecutive bytes leaves every other address alone. -/
theorem readByte_writeBytes_outside (bs : List Byte) : ∀ (mem : List Host.Cell) (base x : Nat),
    base + bs.length ≤ Config.storeBytes → memoryWf mem = true → (x < base ∨ base + bs.length ≤ x) →
    readByte (writeBytes mem base bs) x = readByte mem x := by
  induction bs with
  | nil => intro mem base x _ _ _; rfl
  | cons v rest ih =>
    intro mem base x hb hw hx
    simp only [List.length_cons] at hb hx
    simp only [writeBytes]
    rw [ih _ _ _ (by omega) (writeByte_wf mem base v (by omega) hw) (by omega), readByte_writeByte _ _ _ _ hw,
      if_neg (by omega)]

/-- The memory of the reset state has the canonical form. -/
theorem reset_memory_wf : Memory.wf State.reset = true := rfl

end Sys2Proof.Machine
end

