-- ==== Sys2Proof/Tests/Slice0.lean ====
section
/-! SUPPORT. Small tests of one step each, expected results from the manual's own tables and worked cases; and, for each
statement with hypotheses, a state and operands that meet them, at the boundary values of its clauses. -/

namespace Sys2Proof.Tests

open Sys2Proof Sys2Proof.Machine

set_option Elab.async false

/-! ## Helpers -/

/-- A running part as a load of an erased store leaves its records. -/
def ready : State := { State.reset with loading := false }

/-- An entry with a tag, all else at the defaults. -/
def tagged (t : SlotTag) : MapEntry := { MapEntry.default with slotTag := some t }

/-- A record in a state, at rest otherwise. -/
def inState (st : BranchState) : Branch := { Branch.initial with state := st }

/-- Branch 0 carries tag 127 and is in the given state. -/
def withBranch (x : Branch) : State := (ready.setEntry 0 (tagged 127)).setBranch 0 x

/-- The state after a command. -/
def after (c : Instr) (s : State) : State :=
  match exec c s with
  | .next t => t
  | _ => s

/-- The status a port answers with after a command. -/
def status (c : Instr) (p : Port) (s : State) : Option Status := (((after c s).port p).answer).map (·.status)

/-- A port in a receive state. -/
def portIn (rx : RxState) (s : State) : State := s.setPort .rm { s.port .rm with rx := rx }

/-! ## WellFormed: each check refuses an ill-formed command -/

theorem test_wf_body_of_254 : (Instr.mapWrite .rm (List.replicate 254 0)).wf = true := by decide +kernel
theorem test_wf_refuses_body_of_255 : (Instr.mapWrite .rm (List.replicate 255 0)).wf = false := by decide +kernel
theorem test_wf_unknown_code : (Instr.unknownRequest .sp 0x42 []).wf = true := by decide +kernel
theorem test_wf_refuses_catalogue_code : (Instr.unknownRequest .sp 0x41 []).wf = false := by decide +kernel
theorem test_wf_refuses_long_unknown : (Instr.unknownRequest .sp 0x42 (List.replicate 255 0)).wf = false := by
  decide +kernel

/-! ## Frames (R183) -/

/-- R183's check value: the CRC of the nine digits. -/
theorem test_crc_of_digits : crc16 [0x31, 0x32, 0x33, 0x34, 0x35, 0x36, 0x37, 0x38, 0x39] = 0x29B1 := by decide +kernel

theorem test_frame_of_hold : Decode.frame 0 .sp (Decode.frameBytes 0x36 []) = some (.hold .sp []) := by decide +kernel

theorem test_frame_of_pin :
    Decode.frame 0 .rm (Decode.frameBytes 0x14 [21, 0x01, 0xF4]) = some (.pin .rm [21, 0x01, 0xF4]) := by decide +kernel

theorem test_frame_bad_sync : Decode.frame 5 .rm [0x5A, 1, 0x36] = some (.frameDiscarded 5 .rm .badSync) := by
  decide +kernel

theorem test_frame_zero_length : Decode.frame 5 .rm [0xA5, 0, 0, 0] = some (.frameDiscarded 5 .rm .zeroLength) := by
  decide +kernel

theorem test_frame_wrong_count : Decode.frame 5 .rm [0xA5, 2, 0x36, 0, 0] = some (.frameDiscarded 5 .rm .wrongCount) := by
  decide +kernel

theorem test_frame_bad_crc : Decode.frame 5 .rm [0xA5, 1, 0x36, 0, 0] = some (.frameDiscarded 5 .rm .badCrc) := by
  decide +kernel

/-- R183, R184: an answering port sends 0x5A, the length, the code echo, the status, the body and the CRC. -/
theorem test_answer_frame :
    let w := (ready.answering .sp 0x36 { status := .mode, body := [] }).sending .sp
    w.map (·.take 4) = some [0x5A, 2, 0x36, 10] ∧ w.map (·.length) = some 6 := by decide +kernel

theorem test_no_command_has_bits : decodeTableWord 8 0x36 = none := rfl

/-! ## Requests by chapter -/

/-- R184: the checks of a request in their order. -/
theorem test_busy_during_load : status (.hold .rm [1]) .rm State.reset = some .busy := by decide +kernel
theorem test_length_before_port : status (.hold .rm [1]) .rm ready = some .badLength := by decide +kernel
theorem test_port_before_owner : status (.hold .rm []) .rm ready = some .notPermitted := by decide +kernel

/-- R9: a gain of 0, a prime position of 49 and a TTL of 4.9 s are saturated; the answer is CLAMPED. -/
theorem test_map_write_saturates :
    (after (.mapWrite .rm [47, 127, 1, 1, 0, 0, 49, 2, 0, 49]) ready).entry 47 =
      { slotTag := some 127, autoAdmit := true, authority := .safetyOrRack, gain := 1, primePosition := 50,
        ttlPolicy := .none, ttlTime := 50 } ∧
    status (.mapWrite .rm [47, 127, 1, 1, 0, 0, 49, 2, 0, 49]) .rm ready = some .clamped := by decide +kernel

/-- R42: ADMIT commands the prime position with the return OPEN at attempt 1. -/
theorem test_admit_primes :
    let x := (after (.admitBranch .rm [127]) (withBranch (inState .vacant))).branch 0
    x.state = .priming ∧ x.attempts = 1 ∧ x.supply = 300 ∧ x.ret = .opened ∧ x.timer = some (.start 200) := by decide +kernel

/-- R45's intervals: 2, 4, 8 s and so on, at most 64 s. -/
theorem test_backoff_intervals : [1, 2, 3, 6, 7].map backoffSteps = [20, 40, 80, 640, 640] := by decide +kernel

/-- R66: a floor of 2500 fu with a cap of 1800 fu is refused; with a cap of 3000 fu it is accepted and saturated. -/
theorem test_limits_refused :
    status (.setLimits .rm (127 :: (byte2 2500 ++ byte2 1800 ++ [8]))) .rm (withBranch (inState .noflow)) =
      some .badValue := by decide +kernel

theorem test_limits_saturated :
    let c : Instr := .setLimits .rm (127 :: (byte2 2500 ++ byte2 3000 ++ [8]))
    status c .rm (withBranch (inState .noflow)) = some .clamped ∧
      (after c (withBranch (inState .noflow))).pendingPlan 0 = { demand := 0, floor := 2000, cap := 2000, weight := 8 } :=
  by decide +kernel

/-- R107's table of examples, row by row: duration and marks in steps of 100 ms, and whether the answer is CLAMPED. -/
theorem test_grant_timing :
    ([(600000, none), (600000, some (200000, 580000)), (600000, some (400000, 300000)), (600000, some (200000, 600000)),
      (10000, none), (10000, some (5000, 20000)), (100000000, some (50000000, 90000000))] :
        List (Nat × Option (Nat × Nat))).map
      (fun x => (durationSteps x.1, (grantMarks (durationSteps x.1) x.2).1, grantClamped x.1 x.2)) =
    [(6000, (3000, 5250), false), (6000, (2000, 5800), false), (6000, (3000, 5250), true), (6000, (3000, 5250), true),
     (300, (150, 262), true), (300, (50, 200), true), (864000, (432000, 756000), true)] := by decide +kernel

/-- R105, R109: a lease granted 42 ms into a step of the power-on clock reaches t1 (15 s) 15 s after its grant and not a
millisecond before, whatever command brings the time. -/
theorem test_lease_age_counts_from_the_grant :
    let s := after (.grantBudget .ua (byte2 6000 ++ byte4 30000)) { ready with clock := 42 }
    let phase (ms : Nat) : Option LeasePhase := ((after (.discardQuiet ms .sp) s).lease .a).map (·.phase)
    phase 14999 = some .bound ∧ phase 15000 = some .renewDue := by decide +kernel

/-- R71: a freeze 1 ms old has no step of age; its expiry comes at 10 s and not a millisecond before. -/
theorem test_freeze_age_counts_from_the_request :
    let s := after (.freeze .rm []) { ready with clock := 99 }
    ((after (.freezeExpiry 9999) s).freeze.isSome, (after (.freezeExpiry 10000) s).freeze.isSome) = (true, false) := by
  decide +kernel

/-! ## The worked cases of 05_allotment_arithmetic -/

/-- The shares of branches 0 to 4 in the worked case; `hot` is the resolved demand of branch 3. -/
def shares (hot : Nat) : List Share :=
  [{ branch := 0, floor := 300, weight := 8, resolved := 1800 }, { branch := 1, floor := 300, weight := 8, resolved := 1500 },
   { branch := 2, floor := 500, weight := 12, resolved := 1400 }, { branch := 3, floor := 200, weight := 4, resolved := hot },
   { branch := 4, floor := 250, weight := 8, resolved := 250 }]

theorem test_squeezed_cycle :
    let r := fitShares (some 4450) (shares 200)
    r.fit = .waterFill ∧ r.passes = 2 ∧
      (List.range 5).all (fun n => r.targets.any fun t => t.1.val == n && t.2 == [1411, 1188, 1400, 200, 250].getD n 0) :=
  by decide +kernel

theorem test_hot_outlet :
    let r := fitShares (some 4450) (shares 2000)
    r.passes = 1 ∧
      (List.range 5).all (fun n => r.targets.any fun t => t.1.val == n && t.2 == [1178, 1003, 1290, 727, 250].getD n 0) :=
  by decide +kernel

theorem test_breach :
    let r := fitShares (some 1050) (shares 200)
    r.fit = .breach ∧ r.passes = 0 ∧ sumOver r.targets (·.2) = 1550 := by decide +kernel

/-- The steps of stage 4: slow, and branches 0 and 1 under CONVERGENCE FAST. -/
theorem test_steps :
    [stepApplied Params.default (-189) 64, stepApplied Params.default 188 80, stepApplied Params.default 5 64,
     stepApplied Params.default (-350) 64, stepApplied Params.default (-12) 64, stepApplied Params.default (-1300) 64] =
      [-20, 20, 0, -87, -3, -150] ∧
    [stepApplied { Params.default with convergenceFast := true } (-189) 64,
     stepApplied { Params.default with convergenceFast := true } 188 80] = [-47, 58] := by decide +kernel

/-! ## Cycle Timer, feeds, drips, modes -/

/-- A part in LOCKED cycle mode whose reference mark came at 1000 ms, with the lock-in count `n`. -/
def marked (n : Nat) : State :=
  { ready with
    clock := 1000
    params := { Params.default with cycleMode := .locked, markMultiplier := 4 }
    timer := { CycleTimer.restarted 0 with lockIn := n, reference := some 1000 } }

/-- R76, R77: the second valid mark locks; with MARK_MULTIPLIER 4 and an interval of 2 s a cycle comes every 500 ms, and
the loss deadline stands two intervals on. -/
theorem test_second_mark_locks :
    (after (.mark 2004 .a) (marked 1)).timer =
      { timing := .locked, lockIn := 0, reference := some 3004, interval := some 2000, deadline := some 7004,
        further := [3504, 4004, 4504], lastStart := some 3004, origin := 0 } := by decide +kernel

theorem test_first_mark_counts : (after (.mark 2000 .a) (marked 0)).timer.lockIn = 1 := by decide +kernel

/-- R125: a good report that raises the target's proof count to 3 makes it the active feed and closes the old inlet. -/
theorem test_switch_proves :
    let s : State :=
      { ready.setFeed .b { inlet := .opened, failed := false, lowTimer := none, proof := 2 } with
        switch := some { target := .b, origin := .a, phase := .opening, window := .start 7, requester := .rm }
        scanner := { ready.scanner with exchange := some { module := 16, command := .head .opened .opened, began := 0 } } }
    let t := after (.headReport 1 { number := 0, pressureA := 200, pressureB := 150, inletA := .opened, inletB := .opened }) s
    t.activeFeed = .b ∧ (t.feed .a).inlet = .closed ∧ (t.feed .b).inlet = .opened ∧
      (t.switch.map (·.phase)) = some .closingOld := by decide +kernel

/-- R19, R21: the answer window closes 3 ms after the command: a head report in the 3rd ms is entered, one in the 4th or
with another number is a miss. -/
theorem test_answer_window :
    let s : State := { ready with
      scanner := { ready.scanner with exchange := some { module := 16, command := .head .closed .closed, began := 0 } } }
    let r (n : Byte) : HeadReport := { number := n, pressureA := 200, pressureB := 0, inletA := .closed, inletB := .closed }
    (after (.headReport 3 (r 0)) s).head.link = .online ∧ (after (.headReport 4 (r 0)) s).head.misses = 1 ∧
      (after (.headReport 1 (r 255)) s).head.misses = 1 := by decide +kernel

/-- R138, R139 at an odd threshold: half the threshold is judged on 2 × A. -/
theorem test_levels :
    [judgeLevel 601 300 .suspect, judgeLevel 601 301 .suspect, judgeLevel 601 301 .none, judgeLevel 601 601 .none,
     judgeLevel 601 1201 .hard, judgeLevel 601 1202 .none] = [.none, .suspect, .none, .suspect, .suspect, .hard] := by
  decide +kernel

/-- R138: one report can take A from 0 to its cap. -/
theorem test_accumulate : accumulate { Params.default with dripThreshold := 100 } 3000 0 = 400 ∧
    accumulate Params.default 20 3 = 0 ∧ accumulate Params.default 21 3 = 4 := by decide +kernel

/-- R158, R163, R167: a fault of branch 1 escalates to branches 0 and 2 in that order and begins fault hold. -/
theorem test_isolation_fault :
    let s := (ready.setBranch 0 (inState .flowing)).setBranch 1
      { Branch.toIsolating .hardImbalance 300 with timer := some (.start 0), subPhase := some .returnClosing, ret := .closed }
    let t := after (.isolateWindowExpiry 0 1) s
    (t.branch 1).state = .isolateFault ∧ (t.branch 0).reason = some .escalation ∧
      (t.branch 2).reason = some .escalation ∧ t.store.queue.map (·.branch) = [0, 2] ∧
      t.faultHold = some { first := .isolateFault 1, began := 0, count := 1 } ∧
      t.incidents.records.map (fun r => (r.kind, r.subject, r.detail)) = [(.isolateFault, .branch 1, some 2)] := by
  decide +kernel

/-- R157: the shutoff is closed once the supply reads 10 per-mille, not at 11. -/
theorem test_return_closes_at_ten :
    let s (n : Nat) := (ready.setBranch 0 (Branch.toIsolating .panel 300)).setMeasure 0
      { Measurement.cleared with supplyFeedback := n }
    ((judgeBranch (s 10) 0).branch 0).subPhase = some .returnClosing ∧
      ((judgeBranch (s 11) 0).branch 0).subPhase = some .supplyClosing := by decide +kernel

/-- R168, R169: PARK releases a FLOWING branch and leaves an isolated one. -/
theorem test_park :
    let s := (withBranch (inState .flowing)).setBranch 1 (Branch.toIsolating .panel 300)
    let t := after (.park .rm []) s
    t.mode = .parking ∧ (t.branch 0).state = .vacant ∧ (t.branch 1).state = .isolating ∧
      t.park = some { window := .start 600, confirmed := 0 } := by decide +kernel

/-! ## Incidents and the store -/

/-- R174: numbers still held are passed over, across the wrap from 65535 to 0. -/
theorem test_numbers_wrap : freshSequence [65535, 0] 32 65535 = 1 ∧ freshSequence [] 32 65535 = 65535 := by
  decide +kernel

/-- R192's table. -/
theorem test_mark_table :
    [readsAsSet 0x00 0xFF, readsAsSet 0xFF 0xFF, readsAsSet 0x01 0xFE, readsAsSet 0x01 0x01, readsAsSet 0xFF 0x00] =
      [false, false, true, true, true] := by decide +kernel

/-- R191: an erased store loads defaults with STORE_INVALID as record 0, and RESTARTED and INCIDENT are set. -/
theorem test_erased_store_load :
    let t := after (.storeLoadComplete 0 true true) State.reset
    t.incidents.records.map (fun r => (r.sequence, r.kind, r.detail)) = [(0, .storeInvalid, none)] ∧
      (t.port .sp).flags = 0x201#10 ∧ t.params = Params.default ∧ t.scanner.number = 1 := by decide +kernel

/-- R192: an unreadable mark area reads as set for every branch. -/
theorem test_unreadable_marks :
    let t := after (.storeLoadComplete 0 true false) State.reset
    (t.branch 47).state = .isolating ∧ (t.branch 47).reason = some .stored ∧ t.store.queue.length = 48 ∧
      t.incidents.records.map (fun r => (r.kind, r.detail)) = [(.storeInvalid, none), (.storeFault, some 2)] := by
  decide +kernel

/-- R194: a value replaced during the write and replaced back stays at the head. -/
theorem test_replaced_mark_stays :
    let s : State := { ready with store := { Store.initial with
      queue := [{ branch := 31, value := true }], write := some { branch := 31, value := true, failures := 0, replaced := false } } }
    let t := after (.markWriteEnd 3 true) (handMark 31 true (handMark 31 false s))
    t.store.queue = [{ branch := 31, value := true }] ∧ t.store.write = none := by decide +kernel

/-- R193: a save that ends before its completion leaves an image the next load does not take. -/
theorem test_torn_image_is_bad :
    let s : State := { ready with store := { Store.initial with save := some { image := [], page := 0, failures := 2 } } }
    let t := after (.storeLoadComplete 0 true true) (after .powerOn (after (.savePageWriteEnd 3 false) s))
    t.incidents.records.map (·.kind) = [.storeInvalid] ∧ t.params = Params.default := by decide +kernel

/-- R190: the mark entry of branch 31 stands at 0x103E; a set mark is 0x01, 0xFE. -/
theorem test_mark_bytes :
    let s : State := { ready with store := { Store.initial with
      queue := [{ branch := 31, value := true }], write := some { branch := 31, value := true, failures := 0, replaced := false } } }
    let t := after (.markWriteEnd 3 true) s
    readByte t.eeprom 0x103E = 0x01 ∧ readByte t.eeprom 0x103F = 0xFE ∧ t.store.queue = [] := by decide +kernel

/-- R194, R195: a warm reset aborts a save and keeps the queue; SAVE_ABORTED follows. -/
theorem test_reset_aborts_save :
    let s : State := { ready with
      restartDue := true
      store := { Store.initial with save := some { image := [], page := 11, failures := 0 }
                                    queue := [{ branch := 30, value := true }] } }
    let t := after (.restartReset 0) s
    t.store = { Store.initial with queue := [{ branch := 30, value := true }] } ∧
      t.incidents.records.map (·.kind) = [.saveAborted] ∧ (t.port .rm).flags = 0x201#10 := by decide +kernel

/-! ## Witnesses: the hypotheses of the statements are met -/

/-! ### The step, the ports and the requests -/

theorem witness_StepTakesTheFront :
    ({ ready with pending := [.hold .sp [], .park .rm []] } : State).pending = .hold .sp [] :: [.park .rm []] := rfl

theorem witness_AnIdleStepTakesADueEvent :
    (State.reset.pending = [] ∧ State.reset.running = false) ∧
    (ready.pending = [] ∧ ready.running = true ∧ dueEvents ready = []) ∧
    (({ ready with clock := 100 } : State).pending = [] ∧ ({ ready with clock := 100 } : State).running = true ∧
      dueEvents { ready with clock := 100 } ≠ []) := by decide +kernel

theorem witness_RequestsPassTheirChecksInOrder :
    (catalogue (.hold .rm []) = some ⟨.rm, 0x36, [0], [.sp], []⟩ ∧ (portIn .answering ready).takesFrame .rm = false) ∧
    (State.reset.takesFrame .rm = true ∧ State.reset.loading = true) ∧
    (catalogue (.grantBudget .ua [0, 0, 0, 0, 0]) = some ⟨.ua, 0x20, [6, 14], [.ua, .ub], [0, 0, 0, 0, 0]⟩ ∧
      Ready ready .ua ∧ [0, 0, 0, 0, 0].length ∉ [6, 14]) ∧
    (Ready ready .rm ∧ ([] : List Byte).length ∈ [0] ∧ Port.rm ∉ [Port.sp]) := by
  unfold Ready; decide +kernel

theorem witness_AddressesAreCheckedBeforeTheOwningRule :
    (catalogue (.admitBranch .rm [126]) = some ⟨.rm, 0x12, [1], [.rm], [126]⟩ ∧ Ready ready .rm ∧
      tagNamed (.admitBranch .rm [126]) = some 126 ∧ findTag (withBranch (inState .vacant)) 126 = none) ∧
    (catalogue (.mapClear .rm [48]) = some ⟨.rm, 0x11, [1], [.rm], [48]⟩ ∧ branchNamed (.mapClear .rm [48]) = some 48) ∧
    (catalogue (.clearZone .sp [16]) = some ⟨.sp, 0x34, [1], [.sp], [16]⟩ ∧ zoneNamed (.clearZone .sp [16]) = some 16 ∧
      Ready ready .sp) ∧
    (catalogue (.readPlan .ub [2, 0]) = some ⟨.ub, 0x06, [2], [.rm, .ua, .ub, .sp], [2, 0]⟩ ∧
      formNamed (.readPlan .ub [2, 0]) = some 2 ∧ Ready ready .ub) ∧
    (findTag (withBranch (inState .vacant)) 127 = some 0 ∧ TagsDistinct (withBranch (inState .vacant)) ∧
      ((withBranch (inState .vacant)).entry 0).slotTag = some 127) := by
  unfold Ready TagsDistinct; decide +kernel

theorem witness_ARequestTouchesOnlyItsOwnPort :
    catalogue (.hold .sp []) = some ⟨.sp, 0x36, [0], [.sp], []⟩ ∧ (∃ t, exec (.hold .sp []) ready = .next t) ∧
      Port.rm ≠ Port.sp := ⟨rfl, ⟨_, rfl⟩, by decide⟩

theorem witness_FramesMoveTheReceiveStates :
    ((portIn .discarding ready).takesFrame .rm = false) ∧ (State.reset.takesFrame .rm = true ∧ State.reset.loading = true) ∧
    Ready ready .rm ∧ (ready.held = false ∧ (ready.port .rm).rx = .idle) ∧
    ((portIn .receiving ready).held = false ∧ ((portIn .receiving ready).port .rm).rx ≠ .answering) ∧
    ((portIn .answering ready).held = false ∧ ((portIn .answering ready).port .rm).rx = .answering) ∧
    ((portIn .discarding ready).held = false ∧ ((portIn .discarding ready).port .rm).rx = .discarding) ∧
    (List.replicate 254 (0 : Byte)).length ≤ 254 ∧ (List.replicate 253 (0 : Byte)).length ≤ 253 := by
  unfold Ready; decide +kernel

theorem witness_ReadsAnswerTheirRecord :
    Ready (withBranch (inState .flowing)) .ub ∧ Carries (withBranch (inState .flowing)) 0 (127 : Byte).toNat := by
  unfold Ready Carries; decide +kernel

theorem witness_AnswersAreLaidOut :
    ({ ready with faultHold := some { first := .bothFeedsFailed, began := 3, count := 255 } } : State).faultHold =
      some { first := .bothFeedsFailed, began := 3, count := 255 } ∧
    ready.faultHold = none ∧ ready.freeze = none ∧ ready.park = none ∧ ready.summary.budget = none ∧
    ({ ready with freeze := some { holder := .sp, age := .start 0 } } : State).freeze =
      some { holder := .sp, age := .start 0 } ∧
    ({ ready with park := some { window := .start 600, confirmed := 0xFFFF } } : State).park =
      some { window := .start 600, confirmed := 0xFFFF } ∧
    (((withBranch (inState .flowing)).setLease .a (some
        { phase := .bound, budget := 6000, duration := 300, t1 := 150, t2 := 262, age := .start 0 })).lease .a).isSome = true ∧
    ((allotmentCycle ((withBranch (inState .flowing)).setLease .a (some
        { phase := .bound, budget := 6000, duration := 300, t1 := 150, t2 := 262, age := .start 0 }))).summary.budget).isSome =
      true ∧
    (ready.zone 0).confirm = none ∧
    ((ready.setZone 15 { Zone.initial with state := .wet, confirm := some { remaining := .start 300, running := false } }).zone
      15).confirm = some { remaining := .start 300, running := false } ∧
    ready.switch = none ∧ ready.lease .b = none ∧ ready.handover = none ∧
    ({ ready with switch := some { target := .b, origin := .a, phase := .closingOld, window := .start 600, requester := .ub } } :
      State).switch = some { target := .b, origin := .a, phase := .closingOld, window := .start 600, requester := .ub } ∧
    ({ ready with handover := some { feed := .b, uptime := 7, result := .started } } : State).handover =
      some { feed := .b, uptime := 7, result := .started } ∧
    ((report .zoneWet (.zone 15) none ready).incidents.records[0 + 0]?).isSome = true := by decide +kernel

theorem witness_NoticesAreReadAndMasked :
    Ready ready .ua ∧ 1023 < 1024 ∧ (1024 < 65536 ∧ 1024 ≤ 1024) ∧
      attention { ready with ports := mapTable (fun _ => LinkPort.flag .restarted) ready.ports } .ua = true := by
  unfold Ready; decide +kernel

/-! ### The map and the lifecycle -/

/-- A part with a save running. -/
def saving (s : State) : State :=
  { s with store := { Store.initial with save := some { image := imageOf s, page := 0, failures := 0 } } }

theorem witness_MapWriteIsCheckedThenWritten :
    (Ready ready .rm ∧ (List.replicate 10 (0 : Byte)).length = 10 ∧ at1 (List.replicate 10 (0 : Byte)) 0 = (0 : BranchId).val) ∧
    (Ready (saving ready) .rm ∧ (saving ready).store.save ≠ none) ∧
    (ready.store.save = none ∧ ((withBranch (inState .pinned)).branch 0).state ≠ .unmapped ∧
      ((withBranch (inState .pinned)).branch 0).state ≠ .vacant) ∧
    ((ready.branch 0).state = .unmapped ∧ 128 ≤ at1 [0, 128, 0, 0, 64, 1, 44, 0, 4, 176] 1) ∧
    (((withBranch (inState .vacant)).branch 1).state = .unmapped ∧
      ((withBranch (inState .vacant)).entry 0).slotTag = some 127 ∧ (0 : BranchId) ≠ 1 ∧
      at1 [1, 127, 0, 0, 64, 1, 44, 0, 4, 176] 1 = 127) ∧
    (255 < 256 ∧ 65535 < 65536 ∧ ∀ c : BranchId, c ≠ 0 → ((withBranch (inState .vacant)).entry c).slotTag ≠ some 127) := by
  unfold Ready; decide +kernel

theorem witness_MapClearClearsTheEntry :
    (Ready (withBranch (inState .vacant)) .rm ∧ (withBranch (inState .vacant)).store.save = none ∧
      ((withBranch (inState .vacant)).branch 0).state = .vacant) ∧
    (Ready (saving ready) .rm ∧ (saving ready).store.save ≠ none) ∧ ((ready.branch 0).state ≠ .vacant) ∧
    48 ≤ (48 : Byte).toNat ∧ (Port.sp ≠ .rm ∧ Ready ready .sp) := by
  unfold Ready; decide +kernel

/-- Branch 0, carrying tag 127, in a state, with its zone at a level and the manifold in a mode. -/
def placed (st : BranchState) (level : ZoneLevel) (m : Mode) : State :=
  { (withBranch (inState st)).setZone 0 { Zone.initial with state := level } with mode := m }

theorem witness_AdmitIsCheckedThenPrimes :
    (Ready (placed .vacant .dry .hold) .rm ∧ Carries (placed .vacant .dry .hold) 0 (127 : Byte).toNat ∧
      (placed .vacant .dry .hold).mode ≠ .run) ∧
    (Carries (placed .vacant .wet .run) 0 127 ∧ (placed .vacant .wet .run).mode = .run ∧
      (placed .vacant .wet .run).faultHold = none ∧ ((placed .vacant .wet .run).zone (zoneOf 0)).state = .wet) ∧
    (Carries (placed .flowing .damp .run) 0 127 ∧ ((placed .flowing .damp .run).zone (zoneOf 0)).state ≠ .wet ∧
      ((placed .flowing .damp .run).branch 0).state ≠ .vacant ∧ ((placed .flowing .damp .run).branch 0).state ≠ .noflow) ∧
    (Carries (placed .noflow .damp .run) 0 127 ∧ ((placed .noflow .damp .run).branch 0).state = .noflow) := by
  unfold Ready Carries; decide +kernel

theorem witness_ReleaseRestsTheBranch :
    (Ready (placed .backoff .dry .safe) .rm ∧ Carries (placed .backoff .dry .safe) 0 (127 : Byte).toNat ∧
      ((placed .backoff .dry .safe).branch 0).state ∈
        [BranchState.priming, .backoff, .noflow, .flowing, .setback, .pinned]) ∧
    ((placed .isolated .dry .run).branch 0).state ∈
      [BranchState.unmapped, .vacant, .isolating, .isolated, .isolateFault] := by
  unfold Ready Carries; decide +kernel

theorem witness_PinAndUnpinMoveTheBranch :
    (Ready (placed .setback .dry .run) .rm ∧ Carries (placed .setback .dry .run) 0 (127 : Byte).toNat ∧ 65535 < 65536 ∧
      ((placed .setback .dry .run).branch 0).state = .setback) ∧
    ((withBranch { inState .pinned with pin := some 1000, supply := 1000 }).branch 0).state = .pinned ∧
    ((withBranch { inState .pinned with pin := some 1000, supply := 1000 }).branch 0).pin = some 1000 ∧
    Carries (withBranch { inState .pinned with pin := some 1000, supply := 1000 }) 0 127 ∧
    (((placed .priming .dry .run).branch 0).state ≠ .flowing ∧ ((placed .priming .dry .run).branch 0).state ≠ .setback ∧
      ((placed .priming .dry .run).branch 0).state ≠ .pinned) := by
  unfold Ready Carries; decide +kernel

theorem witness_LifecycleTimersRunOut :
    let priming (n : Nat) : State := withBranch { inState .priming with timer := some (.start 1), attempts := n }
    let backoff : State := withBranch { inState .backoff with timer := some (.start 1), attempts := 1 }
    let flowing : State := withBranch { inState .flowing with ttl := some (.start 1) }
    ((priming 3).running = true ∧ (((priming 3).elapse 100).branch 0).state = .priming ∧
      (((priming 3).elapse 100).branch 0).timer = some (.start 0) ∧
      (((priming 3).elapse 100).branch 0).attempts < (priming 3).params.retryLimit) ∧
    ((((priming 4).elapse 100).branch 0).timer = some (.start 0) ∧
      (priming 4).params.retryLimit ≤ (((priming 4).elapse 100).branch 0).attempts) ∧
    (backoff.running = true ∧ ((backoff.elapse 100).branch 0).state = .backoff ∧
      ((backoff.elapse 100).branch 0).timer = some (.start 0)) ∧
    (flowing.running = true ∧ ((flowing.elapse 100).branch 0).state = .flowing ∧
      ((flowing.elapse 100).branch 0).ttl = some (.start 0) ∧ flowing.mode ≠ .hold) := by decide +kernel

/-- A lease of 30 s in a phase at an age. -/
def leased (f : Feed) (phase : LeasePhase) (age : Nat) (s : State) : State :=
  s.setLease f (some { phase := phase, budget := 6000, duration := 300, t1 := 150, t2 := 262, age := .start age })

/-- A feed whose low-pressure timer runs at an age. -/
def lowFeed (f : Feed) (t : Nat) (s : State) : State := s.setFeed f { s.feed f with lowTimer := some (.start t) }

/-- A switch from A to B in a phase with a window. -/
def switching (phase : SwitchPhase) (window : Nat) (s : State) : State :=
  { s.setInlet .b .opened with
    switch := some { target := .b, origin := .a, phase := phase, window := .start window, requester := .ua } }

theorem witness_TimeRunsTheTimers :
    State.reset.running = false ∧ ready.running = true ∧ nextLeaseMark ready = none ∧
    nextLeaseMark (leased .a .bound 149 ready) = some 100 ∧
    (nextLeaseMark (leased .b .expiring 298 (leased .a .bound 149 ready)) = some 100 ∧ 100 < 200) := by decide +kernel

/-! ### The plan, the cycle and the tuning -/

theorem witness_DemandAndLimitsAreWritten :
    let at' (st : BranchState) : State := withBranch (inState st)
    let fixed : State := (at' .flowing).setEntry 0 { tagged 127 with ttlPolicy := .none }
    (Ready (at' .vacant) .rm ∧ Carries (at' .vacant) 0 (127 : Byte).toNat ∧ 65535 < 65536 ∧
      ((at' .vacant).branch 0).state = .vacant) ∧
    (Carries (at' .flowing) 0 127 ∧ ((at' .flowing).branch 0).state = .flowing ∧
      ((at' .flowing).entry 0).ttlPolicy = .refresh) ∧
    (Carries fixed 0 127 ∧ (fixed.branch 0).state = .flowing ∧ (fixed.entry 0).ttlPolicy ≠ .refresh) ∧
    (Carries (at' .setback) 0 127 ∧ ((at' .setback).branch 0).state = .setback) ∧
    (Carries (at' .isolateFault) 0 127 ∧ ((at' .isolateFault).branch 0).state ≠ .unmapped ∧
      ((at' .isolateFault).branch 0).state ≠ .vacant ∧ min 1999 2000 < min 2001 2000 ∧ min 2000 2000 ≤ min 65535 2000) := by
  unfold Ready Carries; decide +kernel

/-- A frozen plan. -/
def frozen (h : Holder) (age : Nat) : State := { ready with freeze := some { holder := h, age := .start age } }

theorem witness_TheFreezeIsHeldByOnePort :
    (Ready ready .sp ∧ Port.sp = Holder.sp.port ∧ ready.freeze = none) ∧
    (Ready (frozen .sp 99) .sp ∧ (frozen .sp 99).freeze = some { holder := .sp, age := .start 99 }) ∧
    (Ready (frozen .rm 0) .sp ∧ (frozen .rm 0).freeze = some { holder := .rm, age := .start 0 } ∧ Holder.rm ≠ .sp) ∧
    ((frozen .sp 99).running = true ∧ ((frozen .sp 99).elapse 100).freeze = some { holder := .sp, age := .start 100 } ∧
      (frozen .sp 99).params.freezeLimit ≤ (Timer.start 100).steps) ∧
    (((frozen .sp 99).elapse 99).freeze = some { holder := .sp, age := { steps := 99, part := 99 } } ∧
      99 < (frozen .sp 99).params.freezeLimit) ∧
    (ready.running = true ∧ (ready.elapse 100).freeze = none) := by
  unfold Ready; decide +kernel

theorem witness_CyclesStartWhenTheyAreDue :
    let locked (further : List Nat) : State :=
      { ready with timer := { CycleTimer.restarted 0 with timing := .locked, further := further } }
    (ready.running = true ∧ ready.timer.timing = .free ∧
      ready.timer.lastStart.getD ready.timer.origin + ready.params.cyclePeriod ≤ ready.clock + 500) ∧
    (ready.clock + 499 < ready.timer.lastStart.getD ready.timer.origin + ready.params.cyclePeriod) ∧
    ((locked [500, 1000]).running = true ∧ (locked [500, 1000]).timer.timing = .locked ∧
      (locked [500, 1000]).timer.further = 500 :: [1000] ∧ 500 ≤ (locked [500, 1000]).clock + 500 ∧
      (locked [500, 1000]).clock + 499 < 500) ∧
    (locked []).timer.further = [] := by decide +kernel

theorem witness_MarksLockTheCycleTimer :
    let s := marked 1
    let locked : State := { s with timer := { s.timer with timing := .locked, deadline := some 5000 } }
    let interval (x : State) (after : Nat) : Option Nat := x.timer.reference.map fun r => (x.clock + after - r) / 10 * 10
    (s.running = true ∧ s.params.cycleMode = .locked ∧ s.activeFeed = .a ∧ s.timer.timing = .free ∧
      s.timer.lockIn = 1 ∧ interval s 400 = some 400 ∧ 100 * s.params.markMultiplier ≤ 400 ∧ 400 ≤ 10000) ∧
    ((marked 0).timer.lockIn = 0 ∧ interval (marked 0) 10009 = some 10000) ∧
    (interval s 399 = some 390 ∧ ¬ 100 * s.params.markMultiplier ≤ 390) ∧
    (locked.running = true ∧ locked.timer.timing = .locked ∧ interval locked 10000 = some 10000) ∧
    (interval locked 10010 = some 10010 ∧ ¬ 10010 ≤ 10000) ∧
    (ready.params.cycleMode = .free ∧ s.activeFeed ≠ .b) ∧
    (locked.timer.deadline = some 5000 ∧ 5000 ≤ locked.clock + 4000) := by decide +kernel

theorem witness_ACycleSwapsThenComputes :
    let s : State := (withBranch (inState .flowing)).setSegment 0 { link := .online, misses := 0, lastLevel := .dry }
    let p : State := { s with mode := .parked }
    p.mode = .parked ∧ s.mode ≠ .parking ∧ s.mode ≠ .parked ∧ (s.branch 0).state.isAllotting = true ∧
      (s.branch 1).state.isAllotting = false ∧ (s.segment (zoneOf 3)).link ≠ .online ∧
      ({ s with mode := .hold } : State).mode ≠ .run ∧ budgetInForce s = none ∧ s.mode = .run ∧
      (s.segment (zoneOf 0)).link = .online ∧ (0 : BranchId) ∈ (allBranches.filter fun b => (s.branch b).state.isAllotting) ∧
      (0, 100) ∈ (fitShares (none : Option Nat) [{ branch := 0, floor := 100, weight := 8, resolved := 100 }]).targets := by
  decide +kernel

theorem witness_DemandIsResolvedAndFitted :
    let s : State := withBranch (inState .flowing)
    let hot := s.setMeasure 0 { Measurement.cleared with temperature := some 600 }
    ((shares 200).length ≤ 48 ∧ (∀ x ∈ shares 200, x.floor ≤ x.resolved)) ∧
    ((fitShares (some 5150) (shares 200)).fit = .unsqueezed ∧ (fitShares (some 5149) (shares 200)).fit = .waterFill ∧
      (fitShares (some 1550) (shares 200)).fit = .waterFill ∧ (fitShares (some 1549) (shares 200)).fit = .breach) ∧
    ((s.activePlan 0).floor ≤ (s.activePlan 0).cap ∧ (hot.measure 0).temperature = some 600 ∧ hot.params.hotLimit ≤ 600) ∧
    ((s.measure 0).temperature = some 0 ∧ ¬ s.params.hotLimit ≤ 0 ∧
      ((withBranch (inState .setback)).branch 0).state = .setback) ∧
    (let t : State := { s with planActive := put s.planActive 0 { demand := 100, floor := 100, cap := 2000, weight := 8 } }
     (t.branch 0).state = .flowing ∧ (t.activePlan 0).floor ≤ (t.activePlan 0).demand ∧
      (t.activePlan 0).demand ≤ (t.activePlan 0).cap) ∧
    (let asked (demand : Nat) : PlanEntry := { demand := demand, floor := 100, cap := 1999, weight := 8 }
     (({ s with planActive := put s.planActive 0 (asked 99) } : State).activePlan 0).demand < (asked 99).floor ∧
      (asked 2000).cap < (({ s with planActive := put s.planActive 0 (asked 2000) } : State).activePlan 0).demand) := by
  decide +kernel

theorem witness_PositionsMoveByTheBoundedStep :
    let s : State := withBranch { inState .flowing with target := some 1000, supply := 1000 }
    let error (q : Nat) : Int := (((s.branch 0).target.getD 0 : Nat) : Int) -
      ((s.setMeasure 0 { Measurement.cleared with supplyFlow := q }).measure 0).supplyFlow
    (s.branch 0).target = some 1000 ∧ (s.branch 0).supply ≤ 1000 ∧
    (-(s.params.deadband : Int) ≤ error 1005 ∧ error 1005 ≤ s.params.deadband) ∧
    ((s.params.deadband : Int) < error 994) ∧
    (error 1006 < -(s.params.deadband : Int) ∧ -(s.params.leapThreshold : Int) ≤ error 1300) ∧
    (error 1301 < -(s.params.deadband : Int) ∧ error 1301 < -(s.params.leapThreshold : Int)) := by decide +kernel

theorem witness_SetTuningWritesAndActs :
    (Ready ready .rm ∧ Ready (frozen .rm 10) .sp ∧ Ready (marked 0) .rm ∧ Ready (lowFeed .b 5 (lowFeed .a 5 ready)) .rm) ∧
    ((0 : Byte).toNat = 0 ∧ 30 < (31 : Byte).toNat) ∧
    ((22 : Byte).toNat ∈ [11, 17, 22, 23] ∧ (-1 : BitVec 32).toInt < 0 ∧ 1 < (2 : BitVec 32).toInt ∧
      0 ≤ (1 : BitVec 32).toInt ∧ (1 : BitVec 32).toInt ≤ 1) ∧
    (((30 : Byte).toNat, 100, 3000) ∈ [(1, 50, 1000), (30, 100, 3000)]) ∧
    ((7 : Byte).toNat = 7 ∧ (18 : Byte).toNat = 18 ∧ (19 : Byte).toNat = 19 ∧ (20 : Byte).toNat = 20 ∧
      (25 : Byte).toNat = 25) ∧
    ((6 : Byte).toNat = 6 ∧ (0 : BitVec 32).toInt = Timing.free.code ∧ (marked 0).params.cycleMode ≠ .free ∧
      ready.params.cycleMode = .free) ∧
    ((9 : Byte).toNat = 9 ∧ (frozen .rm 10).freeze = some { holder := .rm, age := .start 10 } ∧ 10 ≤ (Timer.start 10).steps ∧
      (frozen .rm 9).freeze = some { holder := .rm, age := .start 9 } ∧ (Timer.start 9).steps < 10) ∧
    (((lowFeed .b 5 (lowFeed .a 5 ready)).feed .a).lowTimer = some (.start 5) ∧
      ((lowFeed .b 5 (lowFeed .a 5 ready)).feed .b).lowTimer = some (.start 5) ∧ 5 ≤ (Timer.start 5).steps ∧
      ((lowFeed .a 4 ready).feed .a).lowTimer = some (.start 4) ∧ (Timer.start 4).steps < 5) ∧
    (let low (a : Nat) (level : SuspectLevel) : State := ready.setDrip 0 { amount := a, level := level, lastImbalance := 0 }
     2 * 600 ≤ min ((low 1200 .none).drip 0).amount (4 * (low 1200 .none).params.dripThreshold) ∧
      min ((low 600 .none).drip 0).amount 2400 < 1200 ∧ 600 ≤ 2 * ((low 300 .suspect).drip 0).amount ∧
      2 * ((low 299 .hard).drip 0).amount < 600) := by
  unfold Ready; decide +kernel

/-! ### Leases and feeds -/

theorem witness_BudgetsAreGrantedAndWithdrawn :
    (Ready ready (Feed.port .b) ∧ 65535 < 65536 ∧ 4294967295 < 4294967296) ∧
    (let d := max 30000 (min 29999 86400000) / 100
     (0 < 100 / 100 ∧ 100 / 100 < 29999 / 100 ∧ 29999 / 100 < d) ∧ ¬ (0 < 99 / 100)) ∧
    (Ready (leased .a .expiring 299 ready) (Feed.port .a) ∧ (leased .a .expiring 299 ready).activeFeed = .a ∧
      (leased .a .expiring 299 ready).lease .a =
        some { phase := .expiring, budget := 6000, duration := 300, t1 := 150, t2 := 262, age := .start 299 } ∧
      LeasePhase.expiring ≠ .lapsed) ∧
    (ready.lease .a = none ∧ ready.activeFeed ≠ .b) := by
  unfold Ready; decide +kernel

theorem witness_LeaseMarksAreReached :
    let before (f : Feed) (phase : LeasePhase) (age : Nat) : State := (leased f phase age ready).elapseBefore 100
    (leased .a .bound 149 ready).running = true ∧
    ((before .a .bound 149).lease .a =
        some { phase := .bound, budget := 6000, duration := 300, t1 := 150, t2 := 262, age := .start 150 } ∧
      leaseMarkDue (before .a .bound 149) .b = false) ∧
    ((before .b .renewDue 261).lease .b =
        some { phase := .renewDue, budget := 6000, duration := 300, t1 := 150, t2 := 262, age := .start 262 } ∧
      leaseMarkDue (before .b .renewDue 261) .a = false) ∧
    ((before .a .expiring 299).lease .a =
        some { phase := .expiring, budget := 6000, duration := 300, t1 := 150, t2 := 262, age := .start 300 } ∧
      (leased .a .expiring 299 ready).activeFeed = .a) ∧
    ((before .b .expiring 299).lease .b =
        some { phase := .expiring, budget := 6000, duration := 300, t1 := 150, t2 := 262, age := .start 300 } ∧
      (leased .b .expiring 299 ready).activeFeed ≠ .b) ∧
    ((before .a .bound 148).lease .a =
      some { phase := .bound, budget := 6000, duration := 300, t1 := 150, t2 := 262, age := .start 149 }) := by
  decide +kernel

/-- R111: one state for each failing condition, every condition before it met, and one that starts the switch. -/
theorem witness_TheHandoverTestFailsOnTheFirst :
    let s := leased .b .renewDue 150 ready
    handoverTest .a s = .started ∧ handoverTest .a { s with activeFeed := .b } = .notActive ∧
    handoverTest .a { s with params := { s.params with autoHandover := false } } = .disabled ∧
    handoverTest .a { s with feedLock := true } = .locked ∧ handoverTest .a (switching .opening 1 s) = .switchInFlight ∧
    handoverTest .a { s with mode := .safe } = .mode ∧
    handoverTest .a (s.setFeed .b { s.feed .b with failed := true }) = .standbyFailed ∧
    handoverTest .a (leased .b .expiring 262 ready) = .standbyLease := by decide +kernel

theorem witness_SwitchFeedBeginsCancelsOrIsRefused :
    (Ready { ready with feedLock := true } .ub ∧ ({ ready with feedLock := true } : State).feedLock = true) ∧
    (Ready { ready with mode := .safe } .rm ∧ ({ ready with mode := .safe } : State).mode = .safe) ∧
    (Ready ready .ua ∧ ready.feedLock = false ∧ ready.mode ≠ .safe ∧ ready.switch = none ∧ Feed.a = ready.activeFeed ∧
      Feed.b ≠ ready.activeFeed ∧ (ready.feed .b).failed = false ∧
      ((ready.setFeed .b { ready.feed .b with failed := true }).feed .b).failed = true) ∧
    (Ready (switching .opening 1 ready) .rm ∧ (switching .opening 1 ready).switch =
      some { target := .b, origin := .a, phase := .opening, window := .start 1, requester := .ua }) ∧
    ((switching .closingOld 1 ready).switch =
      some { target := .b, origin := .a, phase := .closingOld, window := .start 1, requester := .ua }) ∧
    2 ≤ (2 : Byte).toNat := by
  unfold Ready; decide +kernel

theorem witness_FeedWindowsRunOut :
    let starting : State := { ready with startup := some (.start 1) }
    (((switching .opening 1 ready).running = true ∧ ((switching .opening 1 ready).elapse 100).switch =
      some { target := .b, origin := .a, phase := .opening, window := .start 0, requester := .ua })) ∧
    (((switching .closingOld 1 ready).elapse 100).switch =
      some { target := .b, origin := .a, phase := .closingOld, window := .start 0, requester := .ua }) ∧
    (starting.running = true ∧ (starting.elapse 100).startup = some (.start 0) ∧
      ((starting.elapse 100).feed starting.activeFeed.other).failed = false) ∧
    (let f := starting.setFeed .b { starting.feed .b with failed := true }
     (f.elapse 100).startup = some (.start 0) ∧ ((f.elapse 100).feed f.activeFeed.other).failed = true) := by decide +kernel

theorem witness_LowPressureMarksTheFeed :
    let s := lowFeed .a 19 ready
    let off : State := { s with params := { s.params with failoverEnable := false } }
    let standby := lowFeed .b 19 ready
    let both := s.setFeed .b { s.feed .b with failed := true }
    let opening : State := { standby.setFeed .a { standby.feed .a with failed := true } with
      switch := some { target := .b, origin := .a, phase := .opening, window := .start 9, requester := .rm } }
    (s.running = true ∧ ((s.elapse 100).feed .a).lowTimer = some (.start 20) ∧
      s.params.failoverWindow ≤ (Timer.start 20).steps ∧
      ((s.elapse 100).feed .b).failed = false ∧ s.activeFeed = .a ∧ s.params.failoverEnable = true) ∧
    (((off.elapse 100).feed .a).lowTimer = some (.start 20) ∧ off.params.failoverEnable = false) ∧
    (((standby.elapse 100).feed .b).lowTimer = some (.start 20) ∧ standby.activeFeed ≠ .b ∧
      (standby.elapse 100).switch = none ∧ ((standby.elapse 100).feed .a).failed = false) ∧
    ((((switching .opening 9 standby).elapse 100).feed .b).lowTimer = some (.start 20) ∧
      ((switching .opening 9 standby).elapse 100).switch =
        some { target := .b, origin := .a, phase := .opening, window := .start 8, requester := .ua }) ∧
    (((switching .closingOld 9 standby).elapse 100).switch =
        some { target := .b, origin := .a, phase := .closingOld, window := .start 8, requester := .ua }) ∧
    (((both.elapse 100).feed .a).lowTimer = some (.start 20) ∧ ((both.elapse 100).feed .b).failed = true) ∧
    (((opening.elapse 100).feed .b).lowTimer = some (.start 20) ∧ ((opening.elapse 100).feed .a).failed = true ∧
      (opening.elapse 100).switch =
        some { target := .b, origin := .a, phase := .opening, window := .start 8, requester := .rm }) := by decide +kernel

theorem witness_TheFeedLockIsSetForGood :
    let s : State := { ready with feedLock := true, pending := [.hold .sp []] }
    Ready ready .rm ∧ s.feedLock = true ∧ s.pending.head? ≠ some .powerOn ∧ (∃ t, step s = .next t) :=
  ⟨by unfold Ready; decide +kernel, rfl, by decide, ⟨_, rfl⟩⟩

/-! ### The field side -/

/-- An exchange with a module in progress. -/
def exchanging (m : ModuleId) (s : State) : State :=
  { s with scanner := { s.scanner with exchange := some { module := m, command := commandFor s m, began := s.clock } } }

theorem witness_ExchangesBeginAndMiss :
    let two := (exchanging 15 ready).setSegment 15 { link := .missing, misses := 2, lastLevel := .dry }
    let head : State := { exchanging 16 ready with head := { ready.head with misses := 2 } }
    (ready.running = true ∧ ready.scanner.exchange = none ∧ 17 ≤ ready.scanner.next ∧
      ready.scanner.roundStart + ready.scanner.roundInterval ≤ ready.clock + 100) ∧
    (({ ready with scanner := { ready.scanner with next := 16 } } : State).scanner.next = (16 : ModuleId).val) ∧
    ((two.scanner.exchange.map (·.module)) = some (segmentModule 15) ∧ (two.segment 15).link ≠ .stale ∧
      2 ≤ (two.segment 15).misses) ∧
    (((exchanging 15 ready).segment 15).misses < 2) ∧
    ((head.scanner.exchange.map (·.module)) = some headModule ∧ head.head.link ≠ .stale ∧ 2 ≤ head.head.misses) := by
  decide +kernel

theorem witness_ASegmentReportIsEnteredWhole :
    (ready.running = true ∧ (exchanging 15 ready).running = true ∧
      (exchanging 15 ready).scanner.exchange =
        some { module := segmentModule 15, command := commandFor ready 15, began := 0 } ∧
      (exchanging 15 ready).clock + 3 < 0 + 4) ∧
    (0 + 4 ≤ (exchanging 15 ready).clock + 4 ∧ (7 : Byte) ≠ (exchanging 15 ready).scanner.number) ∧
    (((exchanging 16 ready).scanner.exchange.map (·.module)) = some 16 ∧ (16 : ModuleId) ≠ segmentModule 15) ∧
    ready.scanner.exchange = none ∧ zoneOf 0 ≠ 15 ∧ (0 : SegId) ≠ 15 := by decide +kernel

theorem witness_AHeadReportIsEnteredAndJudged :
    let proofs (a b : Nat) (s : State) : State :=
      (s.setFeed .a { s.feed .a with proof := a }).setFeed .b { s.feed .b with proof := b }
    let open' : State := { ready with bothOpen := true }
    ((exchanging 16 ready).running = true ∧
      (exchanging 16 ready).scanner.exchange =
        some { module := headModule, command := commandFor ready 16, began := 0 } ∧
      (exchanging 16 ready).clock + 3 < 0 + 4 ∧ 0 + 4 ≤ (exchanging 16 ready).clock + 4 ∧
      (7 : Byte) ≠ (exchanging 16 ready).scanner.number ∧ ready.scanner.exchange = none) ∧
    (ready.switch = none ∧ ready.startup = none ∧ ready.bothOpen = false) ∧
    ((switching .opening 1 ready).switch =
        some { target := .b, origin := .a, phase := .opening, window := .start 1, requester := .ua } ∧
      ((proofs 0 2 ready).feed .b).proof < 3 ∧ ((proofs 0 3 ready).feed .b).proof = 3) ∧
    ((switching .closingOld 1 ready).switch =
        some { target := .b, origin := .a, phase := .closingOld, window := .start 1, requester := .ua } ∧
      (switching .closingOld 1 ready).inletFeedback .a = .closed ∧
      ({ switching .closingOld 1 ready with head := { ready.head with inletA := .moving } } : State).inletFeedback .a ≠
        .closed) ∧
    (({ ready with startup := some (.start 1) } : State).startup ≠ none ∧ ((proofs 2 0 ready).feed .a).proof < 3 ∧
      ((proofs 3 0 ready).feed .a).proof = 3) ∧
    (open'.bothOpen = true ∧ ((proofs 3 0 open').feed .a).failed = false ∧ ((proofs 3 0 open').feed .a).proof = 3) ∧
    (let failed := (proofs 0 3 open').setFeed .a { (open'.feed .a) with failed := true }
     failed.bothOpen = true ∧ (failed.feed .a).failed = true ∧ (failed.feed .b).failed = false ∧ (failed.feed .b).proof = 3 ∧
      failed.params.failoverEnable = true) := by decide +kernel

theorem witness_ReportsProveAndClose :
    let priming (proof flow : Nat) : State :=
      (withBranch { inState .priming with proof := proof }).setMeasure 0 { Measurement.cleared with returnFlow := flow }
    let closing (sub : SubPhase) (m : Measurement) : State :=
      (withBranch { Branch.toIsolating .panel 300 with subPhase := some sub }).setMeasure 0 m
    let moving : Measurement := { Measurement.cleared with returnFeedback := .moving }
    ((priming 2 49).branch 0).state = .priming ∧ ((priming 2 49).measure 0).returnFlow < (priming 2 49).params.proofFlow ∧
    ((priming 1 50).params.proofFlow ≤ ((priming 1 50).measure 0).returnFlow ∧ ((priming 1 50).branch 0).proof < 2) ∧
    ((priming 2 50).params.proofFlow ≤ ((priming 2 50).measure 0).returnFlow ∧ 2 ≤ ((priming 2 50).branch 0).proof) ∧
    (((closing .supplyClosing { moving with supplyFeedback := 10 }).branch 0).state = .isolating ∧
      ((closing .supplyClosing { moving with supplyFeedback := 10 }).branch 0).subPhase = some .supplyClosing ∧
      ((closing .supplyClosing { moving with supplyFeedback := 10 }).measure 0).supplyFeedback ≤ 10) ∧
    10 < ((closing .supplyClosing { moving with supplyFeedback := 11 }).measure 0).supplyFeedback ∧
    (((closing .returnClosing { Measurement.cleared with supplyFlow := 10 }).branch 0).subPhase = some .returnClosing ∧
      ((closing .returnClosing { Measurement.cleared with supplyFlow := 10 }).branch 0).reason = some .panel ∧
      ((closing .returnClosing { Measurement.cleared with supplyFlow := 10 }).measure 0).returnFeedback = .closed ∧
      ((closing .returnClosing { Measurement.cleared with supplyFlow := 10 }).measure 0).supplyFlow ≤
        ready.params.residualFlow) ∧
    (ready.params.residualFlow < ((closing .returnClosing { Measurement.cleared with supplyFlow := 11 }).measure 0).supplyFlow ∧
      ((closing .returnClosing moving).measure 0).returnFeedback ≠ .closed) ∧
    ((ready.branch 0).state ≠ .priming ∧ (ready.branch 0).state ≠ .isolating) := by decide +kernel

theorem witness_AccumulatorsRiseAndDecay :
    (ready.branch 0).state ∉ [BranchState.priming, .flowing, .setback, .pinned] ∧
    ((withBranch (inState .pinned)).branch 0).state ∈ [BranchState.priming, .flowing, .setback, .pinned] ∧
    ((Params.default.imbalanceTol : Int) < 21 ∧ (20 : Int) ≤ Params.default.imbalanceTol) := by decide +kernel

theorem witness_ZonesAreDebounced :
    let at' (st : ZoneLevel) (rise dry : Nat) : State :=
      ready.setZone 3 { Zone.initial with state := st, rise := rise, dry := dry }
    (((at' .dry 2 0).zone 3).state = .dry ∧ ((at' .dry 2 0).zone 3).rise < 3 ∧ ((at' .dry 2 0).zone 3).rise = 2) ∧
    ((at' .dry 1 0).zone 3).rise < 2 ∧
    (((at' .damp 0 18).zone 3).state = .damp ∧ ((at' .damp 0 18).zone 3).dry < 19) ∧
    ((at' .damp 0 19).zone 3).dry = 19 ∧ ((at' .damp 1 0).zone 3).rise < 2 ∧ ((at' .damp 2 0).zone 3).rise = 2 ∧
    ((at' .wet 0 20).zone 3).state = .wet := by decide +kernel

/-- A WET zone 0 over branch 0 in a state, with a confirm timer, a policy and a suspect level. -/
def wetZone (st : BranchState) (confirm : Option ConfirmTimer) (policy : ZonePolicy) (level : SuspectLevel) : State :=
  ((withBranch (inState st)).setZone 0 { state := .wet, rise := 0, dry := 3, confirm := confirm, policy := policy }).setDrip 0
    { amount := 0, level := level, lastImbalance := 0 }

theorem witness_TheDecisionIsolatesSuspects :
    let one : Option ConfirmTimer := some { remaining := .start 1, running := true }
    let due (s : State) : Prop := ((s.elapse 100).zone 0).confirm = some { remaining := .start 0, running := true }
    ((ready.zone 0).state = .dry ∧ ((placed .flowing .damp .run).zone 0).state = .damp) ∧
    (((wetZone .flowing none .auto .suspect).zone 0).state = .wet ∧ suspectsOf (wetZone .flowing none .auto .suspect) 0 = [0]) ∧
    (exposedOf (wetZone .vacant none .auto .none) 0 = [] ∧ suspectsOf (wetZone .vacant none .auto .none) 0 = []) ∧
    (exposedOf (wetZone .flowing none .auto .none) 0 = [0] ∧ suspectsOf (wetZone .flowing none .auto .none) 0 = [] ∧
      ((wetZone .flowing none .auto .none).zone 0).confirm = none) ∧
    (((wetZone .flowing one .auto .none).zone 0).confirm ≠ none) ∧
    ((wetZone .flowing one .auto .none).running = true ∧ due (wetZone .flowing one .auto .none) ∧
      ((wetZone .flowing one .auto .none).zone 0).policy = .auto) ∧
    (due (wetZone .flowing one .report .none) ∧ ((wetZone .flowing one .report .none).zone 0).policy = .report) ∧
    due (wetZone .vacant one .auto .none) ∧
    (let held := wetZone .flowing one .report .suspect
     held.running = true ∧ due held ∧ ((held.elapse 100).zone 0).state = .wet ∧ suspectsOf (held.elapse 100) 0 ≠ []) := by
  decide +kernel

theorem witness_ZonesAreClearedByThePanel :
    let online (s : State) : State := s.setSegment 0 { link := .online, misses := 0, lastLevel := .dry }
    let wet := wetZone .flowing none .auto .none
    (Ready ready .sp ∧ (ready.zone 0).state = .dry) ∧
    (Ready (placed .flowing .damp .run) .sp ∧ ((placed .flowing .damp .run).zone 0).state = .damp) ∧
    (Ready (online wet) .sp ∧ ((online wet).zone 0).state = .wet ∧ ((online wet).segment 0).link = .online ∧
      3 ≤ ((online wet).zone 0).dry) ∧
    (Ready wet .sp ∧ (wet.segment 0).link ≠ .online) ∧
    (((online (wet.setZone 0 { wet.zone 0 with dry := 2 })).zone 0).dry < 3) ∧ 2 ≤ (2 : Byte).toNat := by
  unfold Ready; decide +kernel

/-! ### Isolation and modes -/

theorem witness_IsolationOrdersTakeEffect :
    (ready.branch 0).state ∉ [BranchState.isolating, .isolated, .isolateFault] ∧
    (((withBranch (inState .isolateFault)).branch 0).state = .isolateFault ∧ IsolationReason.escalation ≠ .panel) ∧
    ((withBranch (inState .isolated)).branch 0).state = .isolated ∧ Ready ready .sp := by
  unfold Ready; decide +kernel

theorem witness_RestoringRestsTheBranch :
    let gone (level : ZoneLevel) (authority : Authority) : State :=
      (placed .isolated level .run).setEntry 0 { tagged 127 with authority := authority }
    (Ready ready .sp ∧ ¬ ((ready.branch 0).state = .isolated ∨ (ready.branch 0).state = .isolateFault)) ∧
    (Ready (gone .wet .safetyOnly) .sp ∧ ((gone .wet .safetyOnly).branch 0).state = .isolated ∧
      ((gone .wet .safetyOnly).zone (zoneOf 0)).state = .wet) ∧
    (Ready (gone .damp .safetyOrRack) .sp ∧ ((gone .damp .safetyOrRack).zone (zoneOf 0)).state ≠ .wet) ∧
    (Ready (gone .dry .safetyOnly) .rm ∧ Carries (gone .dry .safetyOnly) 0 (127 : Byte).toNat ∧
      ((gone .dry .safetyOnly).entry 0).authority = .safetyOnly) ∧
    (Ready (gone .damp .safetyOrRack) .rm ∧ Carries (gone .damp .safetyOrRack) 0 (127 : Byte).toNat ∧
      ((gone .damp .safetyOrRack).entry 0).authority = .safetyOrRack) ∧
    (Carries (gone .wet .safetyOrRack) 0 127 ∧ ((gone .wet .safetyOrRack).entry 0).authority = .safetyOrRack) ∧
    (zoneOf 0 = 0 ∧ zoneOf 2 = 0 ∧ zoneOf 3 ≠ 0) ∧ (ready.branch 1).state.isIsolation = false ∧
    ((placed .isolateFault .dry .run).branch 0).state = .isolateFault := by
  unfold Ready Carries; decide +kernel

theorem witness_AnIsolationFaultEscalates :
    let s := withBranch { Branch.toIsolating .panel 1 with subPhase := some .supplyClosing }
    let held (m : Mode) : State :=
      { ready with mode := m, faultHold := some { first := .bothFeedsFailed, began := 0, count := 255 } }
    (s.running = true ∧ ((s.elapse 100).branch 0).state = .isolating ∧ ((s.elapse 100).branch 0).timer = some (.start 0)) ∧
    ready.faultHold = none ∧
    ((held .safe).faultHold = some { first := .bothFeedsFailed, began := 0, count := 255 } ∧ (held .safe).mode = .safe) ∧
    ((held .parking).faultHold = some { first := .bothFeedsFailed, began := 0, count := 255 } ∧
      (held .parking).mode ≠ .safe) := by decide +kernel

theorem witness_HoldAndFaultHoldAreCleared :
    let held (m : Mode) (st : BranchState) : State :=
      { withBranch (inState st) with
        mode := m, faultHold := some { first := .isolateFault 0, began := 0, count := 1 } }
    (Ready ready .sp ∧ ready.mode ≠ .safe ∧ ready.faultHold = none) ∧
    (Ready (held .safe .isolateFault) .sp ∧ (held .safe .isolateFault).mode = .safe ∧
      ((held .safe .isolateFault).branch 0).state = .isolateFault) ∧
    (Ready (held .run .isolateFault) .sp ∧ (held .run .isolateFault).mode ≠ .safe ∧
      (held .run .isolateFault).faultHold ≠ none) ∧
    (Ready (held .safe .vacant) .sp ∧ faultStands (held .safe .vacant) = false ∧ faultStands (held .run .vacant) = false ∧
      (held .run .vacant).faultHold ≠ none) := by
  unfold Ready; decide +kernel

theorem witness_ParkingRestsTheRack :
    let parking : State := { ready with mode := .parking, park := some { window := .start 1, confirmed := 0x8000 } }
    (Ready { ready with mode := .hold } .rm ∧ ({ ready with mode := .hold } : State).mode = .hold) ∧
    (Ready parking .rm ∧ parking.mode ≠ .run ∧ parking.mode ≠ .hold) ∧
    (Ready ready .rm ∧ ready.mode ≠ .parking ∧ ready.mode ≠ .parked) ∧
    (parking.running = true ∧ parking.mode = .parking ∧
      (parking.elapse 100).park = some { window := .start 0, confirmed := 0x8000 }) ∧
    (parking.park = some { window := .start 1, confirmed := 0x8000 } ∧ ready.park = none ∧
      (∀ y, (parking.segment y).link ≠ .online) ∧
      ((parking.setSegment 3 { link := .online, misses := 0, lastLevel := .dry }).segment 3).link = .online) ∧
    ((withBranch (inState .backoff)).branch 0).state ∈ [BranchState.priming, .backoff, .noflow, .flowing, .setback, .pinned] ∧
    ((withBranch (inState .backoff)).branch 0).state.isAdmitted = true ∧ (ready.branch 1).state.isAdmitted = false ∧
    (Ready (placed .pinned .dry .hold) .rm ∧ (placed .pinned .dry .hold).mode = .hold) := by
  unfold Ready; decide +kernel

/-! ### Incidents, the store and the resets -/

/-- A list of `n` records of distinct branches, numbered from 0. -/
def listed (n : Nat) : State :=
  { ready with incidents :=
    { records := (allBranches.take n).map fun b =>
        { sequence := b.val, kind := .branchHot, subject := .branch b, firstTime := 0, lastTime := 0, count := 65535,
          detail := some 612 },
      next := n, overflow := 255 } }

theorem witness_ReportsAreListedAndAcknowledged :
    (∃ r ∈ (listed 32).incidents.records, r.kind = .branchHot ∧ r.subject = .branch 31) ∧
    (¬ (∃ r ∈ (listed 31).incidents.records, r.kind = .branchHot ∧ r.subject = .branch 31) ∧
      (listed 31).incidents.records.length < 32 ∧ (listed 31).incidents.next < 65536) ∧
    (¬ (∃ r ∈ (listed 32).incidents.records, r.kind = .branchHot ∧ r.subject = .branch 32) ∧
      32 ≤ (listed 32).incidents.records.length) ∧
    (Ready (listed 1) .sp ∧ 0 < 65536 ∧ (∃ r ∈ (listed 1).incidents.records, r.sequence = 0)) ∧
    (Ready (listed 1) .rm ∧ 65535 < 65536 ∧ ∀ r ∈ (listed 1).incidents.records, r.sequence ≠ 65535) ∧
    Ready ready .ua := by
  unfold Ready; decide +kernel

/-- A part with a save of an empty image at a page, after some failures. -/
def savingAt (page failures : Nat) : State :=
  { ready with store := { Store.initial with save := some { image := [], page := page, failures := failures } } }

theorem witness_SavesWriteTheirPages :
    (Ready ready .rm ∧ ready.store.save = none) ∧ (Ready (savingAt 0 0) .rm ∧ (savingAt 0 0).store.save ≠ none) ∧
    ((savingAt 18 1).running = true ∧ (savingAt 18 1).store.save = some { image := [], page := 18, failures := 1 } ∧
      (savingAt 18 1).store.write = none) ∧
    ((savingAt 19 2).store.save = some { image := [], page := 19, failures := 2 }) := by
  unfold Ready; decide +kernel

/-- A mark queue with a write in progress, or a retry wait. -/
def queued (write : Option MarkWrite) (retry : Option Nat) : State :=
  { ready with store := { save := none, queue := [{ branch := 47, value := true }], write := write, retry := retry.map .start } }

theorem witness_MarksAreWrittenFromTheHead :
    ((queued none none).running = true ∧ (queued none none).store.save = none ∧ (queued none none).store.retry = none ∧
      (queued none none).store.write = none ∧ (queued none none).store.queue = { branch := 47, value := true } :: []) ∧
    ready.store.queue = [] ∧ (savingAt 0 0).store.save ≠ none ∧
    (queued (some { branch := 47, value := true, failures := 1, replaced := false }) none).store.write =
      some { branch := 47, value := true, failures := 1, replaced := false } ∧
    (queued (some { branch := 47, value := true, failures := 2, replaced := false }) none).store.write =
      some { branch := 47, value := true, failures := 2, replaced := false } ∧
    (((queued none (some 1)).elapse 100).store.retry = some (.start 0) ∧ (queued none (some 1)).store.save = none ∧
      (queued none (some 1)).store.write = none ∧
      (queued none (some 1)).store.queue = { branch := 47, value := true } :: []) ∧
    (let s : State := { savingAt 0 0 with store := { (savingAt 0 0).store with retry := some (.start 1) } }
     (s.elapse 100).store.retry = some (.start 0) ∧ s.store.save ≠ none) ∧
    (queued (some { branch := 47, value := false, failures := 0, replaced := true }) none).store.write =
      some { branch := 47, value := false, failures := 0, replaced := true } ∧
    ((∀ e ∈ (queued none none).store.queue, e.branch ≠ 0) ∧ (∃ e ∈ (queued none none).store.queue, e.branch = 47)) := by
  decide +kernel

theorem witness_ASavedImageLoadsBack :
    ParamsInRange (withBranch (inState .vacant)) ∧ TagsDistinct (withBranch (inState .vacant)) ∧
      EntriesFit (withBranch (inState .vacant)) := by
  refine ⟨?_, by unfold TagsDistinct; decide +kernel, by unfold EntriesFit MapEntry.fits; decide +kernel⟩
  unfold ParamsInRange Params.inRange
  (repeat' apply And.intro) <;> decide +kernel

theorem witness_AWarmResetRestartsThePart :
    let low (s : State) : State := { s with resetLow := true }
    Ready ready .rm ∧ (ready.running = true ∧ ready.restartDue = false) ∧
    (({ ready with restartDue := true } : State).running = true) ∧ ready.resetLow = false ∧ (low ready).resetLow = true ∧
    (State.reset.resetLow = false ∧ State.reset.loading = true) ∧ ready.saveAborted = false ∧
    (takeReset (low (savingAt 11 0))).saveAborted = true := by
  unfold Ready; decide +kernel

theorem witness_PowerOnLoadsTheStore :
    let s : State := { State.reset with eeprom := writeBytes [] (4096 + 2 * 47) [0x01, 0xFE] }
    let entry : List Byte := [1, 127, 1, 0, 64, 1, 44, 2, 4, 176]
    let image (e : List Byte) : List Byte := List.replicate 124 0 ++ e
    ready.loading = false ∧ State.reset.loading = true ∧
    (¬ (at2 (storedImage State.reset) 0 = 1)) ∧
    markReadsSet (readByte s.eeprom (4096 + 2 * 47)) (readByte s.eeprom (4096 + 2 * 47 + 1)) ∧
    ¬ markReadsSet (readByte s.eeprom 4096) (readByte s.eeprom 4097) ∧
    (State.reset.resetLow = false ∧ ({ State.reset with resetLow := true } : State).resetLow = true) ∧
    (State.reset.store.queue = [] ∧ ∀ b, (State.reset.branch b).state.isIsolation = false) ∧
    (at1 (image (2 :: entry.tail)) 124 ≠ 1 ∧ ¬ at1 (image [1, 128]) (124 + 1) < 128) ∧
    (at1 (image entry) 124 = 1 ∧ at1 (image entry) (124 + 1) = (127 : SlotTag).val ∧ at1 (image entry) (124 + 2) = 1 ∧
      at1 (image entry) (124 + 3) = Authority.safetyOnly.code ∧ at1 (image entry) (124 + 7) = TtlPolicy.none.code) ∧
    ((0 : BranchId) < 1 ∧ ((ready.setEntry 0 (tagged 127)).entry 0).slotTag = some 127) ∧
    (∀ c : BranchId, c < 47 → (ready.entry c).slotTag ≠ some 127) := by
  unfold markReadsSet; decide +kernel

/-- A CRC of 0x5FEA stays so over erased bytes. -/
theorem crc_of_erased (n : Nat) : (List.replicate n (0xFF : Byte)).foldl crcByte 0x5FEA = 0x5FEA := by
  induction n with
  | zero => rfl
  | succ n ih => rw [List.replicate_succ, List.foldl_cons, show crcByte 0x5FEA 0xFF = 0x5FEA by decide +kernel]; exact ih

/-- A part at power-on with a good image: format number 1, length 620, two bytes that bring the CRC to 0x5FEA, erased bytes,
and that CRC. -/
def goodStore : State :=
  { State.reset with eeprom := writeBytes (writeBytes [] 0 [0, 1, 0x02, 0x6C, 0xD8, 0xAD]) 620 [0x5F, 0xEA] }

theorem goodStore_bytes :
    storedImage goodStore = [0, 1, 0x02, 0x6C, 0xD8, 0xAD] ++ List.replicate 614 0xFF ++ [0x5F, 0xEA] := by
  decide +kernel

theorem goodStore_crc : crc16 ([0, 1, 0x02, 0x6C, 0xD8, 0xAD] ++ List.replicate 614 0xFF) = 0x5FEA := by
  rw [crc16, List.foldl_append, ← crc16, show crc16 [0, 1, 0x02, 0x6C, 0xD8, 0xAD] = 0x5FEA by decide +kernel]
  exact crc_of_erased 614

/-- R190, R191: a load can find a good image. -/
theorem witness_PowerOnLoadsTheStore_goodImage :
    (goodStore.loading = true ∧ goodStore.imageTorn = false ∧ at2 (storedImage goodStore) 0 = 1 ∧
      at2 (storedImage goodStore) 2 = 620) ∧
    (crc16 ((storedImage goodStore).take 620)).toNat = at2 (storedImage goodStore) 620 := by
  refine ⟨by decide +kernel, ?_⟩
  rw [goodStore_bytes, List.take_left' (by decide +kernel), goodStore_crc]
  decide +kernel

/-! ### The invariants -/

/-- A record of a FLOWING branch. -/
def flowingRecord : Branch := { inState .flowing with ttl := some (.start 1200), target := some 100, supply := 300, ret := .opened }

/-- A running part: branch 0 FLOWING with a target, feed A's lease RENEW_DUE, one incident, a HOLD waiting. -/
def rich : State :=
  { leased .a .renewDue 150 (withBranch flowingRecord) with
    incidents := (listed 1).incidents, pending := [.hold .sp []] }

theorem rich_steps : ∃ t, step rich = .next t := ⟨_, rfl⟩

theorem rich_entry (b : BranchId) : rich.entry b = if b = 0 then tagged 127 else MapEntry.default := by
  revert b; decide +kernel

theorem rich_branch (b : BranchId) : rich.branch b = if b = 0 then flowingRecord else Branch.initial := by
  revert b; decide +kernel

theorem rich_plan (b : BranchId) : rich.activePlan b = PlanEntry.default := by revert b; decide +kernel

theorem rich_pending (b : BranchId) : rich.pendingPlan b = PlanEntry.default := by revert b; decide +kernel

theorem rich_zone (z : SegId) : rich.zone z = Zone.initial := by revert z; decide +kernel

theorem rich_segment (z : SegId) : rich.segment z = SegmentRecord.cleared := by revert z; decide +kernel

theorem rich_feed (f : Feed) :
    rich.feed f = { inlet := if f = .a then .opened else .closed, failed := false, lowTimer := none, proof := 0 } := by
  cases f <;> decide +kernel

theorem rich_lease (f : Feed) : rich.lease f =
    if f = .a then some { phase := .renewDue, budget := 6000, duration := 300, t1 := 150, t2 := 262, age := .start 150 }
    else none := by
  cases f <;> decide +kernel

theorem witness_TheMapAndTheBranchesStayInStep :
    TagsDistinct rich ∧ EntriesFit rich ∧ StatesMatchEntries rich ∧ RecordsAgree rich ∧ AttemptsFit rich ∧ OutputsFit rich ∧
      MarksMatch rich := by
  refine ⟨by unfold TagsDistinct; decide +kernel, by unfold EntriesFit MapEntry.fits; decide +kernel,
    by unfold StatesMatchEntries; decide +kernel, by unfold RecordsAgree Branch.agrees; decide +kernel,
    fun b => by rw [rich_branch]; split <;> simp [flowingRecord, inState, Branch.initial, Branch.attemptsFit], fun b => ?_,
    by unfold MarksMatch; decide +kernel⟩
  rw [rich_entry, rich_branch]
  by_cases h : b = 0 <;> simp [h, tagged, MapEntry.default, flowingRecord, inState, Branch.initial, Branch.outputsFit]

theorem witness_ThePlanStaysBounded :
    FloorsBelowCaps rich ∧ ParkedAtRest rich ∧ PlansAtRest rich ∧ PlansInRange rich ∧ TargetsBounded rich := by
  refine ⟨by unfold FloorsBelowCaps; decide +kernel, by unfold ParkedAtRest; decide +kernel,
    by unfold PlansAtRest; decide +kernel, fun b => by rw [rich_pending, rich_plan]; simp [PlanEntry.inRange, PlanEntry.default], fun b h t ht => ?_⟩
  have plan : rich.activePlan b = PlanEntry.default := rich_plan b
  rw [rich_branch] at ht
  by_cases hb : b = 0 <;> simp_all [flowingRecord, inState, Branch.initial, PlanEntry.default]; omega

theorem witness_TheFieldRecordsStayInRange :
    MeasurementsInRange rich ∧ LinksFit rich ∧ DripsBounded rich ∧ ZonesFit rich := by
  have m (b : BranchId) : rich.measure b = Measurement.cleared := by revert b; decide +kernel
  refine ⟨⟨fun b => ?_, by decide, by decide⟩, ⟨fun z => ?_, ?_⟩, by unfold DripsBounded; decide +kernel, fun z => ?_⟩
  · simp [m, Measurement.cleared]
  · simp [rich_segment, SegmentRecord.cleared, linkFits]
  · show linkFits .missing 0; simp [linkFits]
  · rw [rich_zone]; simp [Zone.fits, Zone.initial]

theorem witness_TheFeedsAndLeasesStayInStep : InletsAgree rich ∧ FeedsAgree rich ∧ LeasesOrdered rich := by
  refine ⟨⟨by decide +kernel, fun w h => ?_, fun h => ?_, fun h => ?_, fun h => ?_⟩, fun f => ?_, fun f l hl => ?_⟩
  · have : rich.switch = none := rfl
    simp [this] at h
  · exact absurd h (by decide +kernel)
  · exact absurd rfl h
  · exact absurd h (by decide +kernel)
  · simp [rich_feed]
  · rw [rich_lease] at hl
    cases f <;> simp_all
    subst hl; simp [Lease.ordered, Timer.start]

theorem witness_ModesAndIncidentsStayInBounds : ModesAgree rich ∧ IncidentsFit rich := by
  refine ⟨⟨by decide, fun h hh => ?_, by decide⟩, by unfold IncidentsFit; decide +kernel⟩
  have : rich.faultHold = none := rfl
  simp [this] at hh

theorem witness_TheParametersAndTheStoreStayInBounds :
    ParamsInRange rich ∧ StoreFits rich ∧ Memory.wf rich = true ∧ ¬ inAreas 622 ∧ ¬ inAreas 0x1060 := by
  refine ⟨?_, ⟨fun v hv => ?_, by decide +kernel⟩, by decide +kernel, by unfold inAreas; decide, by unfold inAreas; decide⟩
  · unfold ParamsInRange Params.inRange
    (repeat' apply And.intro) <;> decide +kernel
  · have : rich.store.save = none := rfl
    simp [this] at hv

end Sys2Proof.Tests
end

/-! ## The answers of MAP_CLEAR (R12) -/

namespace Sys2Proof.Machine

open Sys2Proof

/-! ### The checks of R184 that come before a rule's own -/

/-- R184: a port outside the request's permission is refused, once the length has been found right. -/
theorem request_notPermitted {p : Port} {code : Byte} {lengths : List Nat} {allowed : List Port} {body : List Byte}
    {h : Handler} {s : State} (hr : Ready s p) (hl : body.length ∈ lengths) (hp : p ∉ allowed) :
    request p code lengths allowed body h s = .next (s.answering p code (Reply.plain .notPermitted)) := by
  obtain ⟨takes, loaded⟩ := hr
  simp [request, takes, loaded, hl, hp]

@[simp] theorem byBranch_val (b : BranchId) (h : BranchId → Handler) (s : State) : byBranch b.val h s = h b s :=
  dif_pos b.isLt

theorem byBranch_badIndex {n : Nat} (hn : 48 ≤ n) (h : BranchId → Handler) (s : State) :
    byBranch n h s = refuse .badIndex s :=
  dif_neg (Nat.not_lt.mpr hn)

/-- A branch index fits the byte that carries it (R14). -/
@[simp] theorem at1_branchByte (b : BranchId) (rest : List Byte) : at1 (BitVec.ofNat 8 b.val :: rest) 0 = b.val := by
  have fits : b.val < 2 ^ 8 := by omega
  simpa [at1] using Nat.mod_eq_of_lt fits

/-! ### MAP_CLEAR's own checks and its effect -/

theorem mapClear_saving {s : State} (b : BranchId) (saving : s.store.save ≠ none) : mapClear b s = refuse .busy s :=
  if_pos (Option.isSome_iff_ne_none.mpr saving)

theorem mapClear_notVacant {s : State} {b : BranchId} (idle : s.store.save = none) (other : (s.branch b).state ≠ .vacant) :
    mapClear b s = refuse .wrongState s := by
  simp [mapClear, idle, other]

theorem mapClear_vacant {s : State} {b : BranchId} (idle : s.store.save = none) (vacant : (s.branch b).state = .vacant) :
    mapClear b s =
      (Reply.plain .ok, enter b ((s.branch b).atRest .unmapped 0 none) (s.setEntry b MapEntry.default)) := by
  simp [mapClear, idle, vacant]

/-! ### MAP_CLEAR as a request -/

theorem exec_mapClear (p : Port) (body : List Byte) (s : State) :
    exec (.mapClear p body) s = request p 0x11 [1] [.rm] body (byBranch (at1 body 0) mapClear) s := rfl

/-- On RM a body of one byte reaches the check of the branch index. -/
theorem exec_mapClear_rm {s : State} (ready : Ready s .rm) (n : Byte) :
    exec (.mapClear .rm [n]) s =
      .next ((byBranch (at1 [n] 0) mapClear s).2.answering .rm 0x11 (byBranch (at1 [n] 0) mapClear s).1) := by
  rw [exec_mapClear, request_handled ready (by simp) (by simp)]

/-- The bytes 0 to 47 reach MAP_CLEAR's own checks. -/
theorem exec_mapClear_branch {s : State} (ready : Ready s .rm) (b : BranchId) :
    exec (.mapClear .rm [BitVec.ofNat 8 b.val]) s = .next ((mapClear b s).2.answering .rm 0x11 (mapClear b s).1) := by
  rw [exec_mapClear_rm ready, at1_branchByte, byBranch_val]

/-- Settles O12: each clause is one outcome of R184's checks or of MAP_CLEAR's own. -/
theorem mapClearClearsTheEntry : Obligations.MapClearClearsTheEntry := by
  intro s b ready
  refine ⟨fun idle vacant => ?cleared, fun saving => ?busy, fun idle other => ?wrongState, fun n high => ?badIndex,
    fun p n other readyP => ?notPermitted⟩
  case cleared => rw [exec_mapClear_branch ready, mapClear_vacant idle vacant]; rfl
  case busy => rw [exec_mapClear_branch ready, mapClear_saving b saving]; rfl
  case wrongState => rw [exec_mapClear_branch ready, mapClear_notVacant idle other]; rfl
  case badIndex =>
    have index : 48 ≤ at1 [n] 0 := high
    rw [exec_mapClear_rm ready, byBranch_badIndex index]; rfl
  case notPermitted => rw [exec_mapClear, request_notPermitted readyP (by simp) (by simpa using other)]; rfl

end Sys2Proof.Machine

/-! ## The bounded position step (R96, R97) -/

namespace Sys2Proof.Machine

open Sys2Proof

/-- A saturated number is the number held between the ends of its range (00_scope, Saturation). -/
theorem saturate_eq_max_min {lo hi : Nat} (range : lo ≤ hi) (z : Int) :
    (saturate lo hi z : Int) = max (lo : Int) (min (hi : Int) z) := by
  unfold saturate
  split
  case isTrue below => omega
  case isFalse notBelow => split <;> omega

/-- STEP under either CONVERGENCE (R97). -/
theorem Params.step_cast (p : Params) :
    (p.step : Int) = if p.convergenceFast then (p.stepFast : Int) else p.stepSlow := by
  unfold Params.step
  split <;> rfl

/-! ### The step applied for a flow error -/

theorem stepApplied_deadband {p : Params} {e : Int} (gain : Nat) (above : -(p.deadband : Int) ≤ e) (below : e ≤ p.deadband) :
    stepApplied p e gain = 0 :=
  if_pos (by omega)

theorem stepApplied_opening {p : Params} {e : Int} (gain : Nat) (outside : (p.deadband : Int) < e) :
    stepApplied p e gain = min ((e * gain).tdiv 256) p.step := by
  have notWithin : ¬ e.natAbs ≤ p.deadband := by omega
  have opening : 0 < e := by omega
  simp only [stepApplied, notWithin, opening, if_false, if_true]

theorem stepApplied_closing {p : Params} {e : Int} (gain : Nat) (outside : e < -(p.deadband : Int))
    (near : -(p.leapThreshold : Int) ≤ e) : stepApplied p e gain = max ((e * gain).tdiv 256) (-(p.step : Int)) := by
  have notWithin : ¬ e.natAbs ≤ p.deadband := by omega
  have notOpening : ¬ 0 < e := by omega
  simp only [stepApplied, notWithin, notOpening, near, if_false, if_true]

theorem stepApplied_leaping {p : Params} {e : Int} (gain : Nat) (outside : e < -(p.deadband : Int))
    (far : e < -(p.leapThreshold : Int)) : stepApplied p e gain = max ((e * gain).tdiv 256) (-(p.leapLimit : Int)) := by
  have notWithin : ¬ e.natAbs ≤ p.deadband := by omega
  have notOpening : ¬ 0 < e := by omega
  have notNear : ¬ -(p.leapThreshold : Int) ≤ e := by omega
  simp only [stepApplied, notWithin, notOpening, notNear, if_false]

/-! ### The position it makes -/

/-- R97: of a branch with a target the supply position alone is written, moved by the step and clamped. -/
theorem movePosition_of_target {s : State} {b : BranchId} {target : Nat} (present : (s.branch b).target = some target) :
    movePosition s b = s.setBranch b { s.branch b with
      supply := saturate 0 1000 ((s.branch b).supply +
        stepApplied s.params ((target : Int) - (s.measure b).supplyFlow) (s.entry b).gain) } := by
  simp only [movePosition, present]

theorem movePosition_supply {s : State} {b : BranchId} {target : Nat} (present : (s.branch b).target = some target) :
    (((movePosition s b).branch b).supply : Int) = max 0 (min 1000 ((s.branch b).supply +
      stepApplied s.params ((target : Int) - (s.measure b).supplyFlow) (s.entry b).gain)) := by
  rw [movePosition_of_target present, State.setBranch_branch, if_pos rfl]
  exact saturate_eq_max_min (by decide) _

/-- Settles O24: one clause for the deadband, one for each row of R97's table, and the frame. -/
theorem positionsMoveByTheBoundedStep : Obligations.PositionsMoveByTheBoundedStep := by
  intro s b target present p e raw bound x moved
  have position : x = moved (stepApplied p e (s.entry b).gain) := movePosition_supply present
  have stepBound : bound = p.step := p.step_cast.symm
  refine ⟨fun above below inRange => ?deadband, fun outside => ?opening, fun outside near => ?closing,
    fun outside far => ?leaping, ?frame⟩
  case deadband =>
    rw [position, stepApplied_deadband _ above below]
    simp only [moved]
    omega
  case opening => rw [position, stepApplied_opening _ outside, stepBound]
  case closing => rw [position, stepApplied_closing _ outside near, stepBound]
  case leaping => rw [position, stepApplied_leaping _ outside far]
  case frame => rw [movePosition_of_target present, State.setBranch_branch, if_pos rfl]

end Sys2Proof.Machine

/-! ## The drip update (R138, R139) -/

namespace Sys2Proof.Machine

open Sys2Proof

theorem BranchState.isExposed_iff (st : BranchState) :
    st.isExposed = true ↔ st ∈ [BranchState.priming, .flowing, .setback, .pinned] := by
  cases st <;> decide

/-! ### The accumulator (R138) -/

theorem accumulate_rises {p : Params} {i : Int} (a : Nat) (above : (p.imbalanceTol : Int) < i) :
    (accumulate p i a : Int) = min ((a : Int) + (i - p.imbalanceTol)) (4 * p.dripThreshold) := by
  rw [accumulate, if_pos above]
  omega

theorem accumulate_decays {p : Params} {i : Int} (a : Nat) (within : i ≤ (p.imbalanceTol : Int)) :
    accumulate p i a = min (a - p.dripDecay) (4 * p.dripThreshold) :=
  if_neg (not_lt.mpr within)

/-! ### The suspect level (R139) -/

theorem judgeLevel_hard {T a : Nat} (before : SuspectLevel) (twice : 2 * T ≤ a) : judgeLevel T a before = .hard :=
  if_pos twice

theorem judgeLevel_suspect {T a : Nat} (before : SuspectLevel) (atLeast : T ≤ a) (belowTwice : a < 2 * T) :
    judgeLevel T a before = .suspect := by
  rw [judgeLevel, if_neg (not_le.mpr belowTwice), if_pos atLeast]

/-- R139: from half the threshold up to it, a suspicion is kept and none is raised. -/
theorem judgeLevel_kept {T a : Nat} (before : SuspectLevel) (below : a < T) (atLeastHalf : T ≤ 2 * a) :
    judgeLevel T a before = if before = .none then .none else .suspect := by
  have belowTwice : ¬ 2 * T ≤ a := by omega
  rw [judgeLevel, if_neg belowTwice, if_neg (not_le.mpr below), if_pos atLeastHalf]

theorem judgeLevel_none {T a : Nat} (before : SuspectLevel) (belowHalf : 2 * a < T) : judgeLevel T a before = .none := by
  have belowTwice : ¬ 2 * T ≤ a := by omega
  have below : ¬ T ≤ a := by omega
  rw [judgeLevel, if_neg belowTwice, if_neg below, if_neg (not_le.mpr belowHalf)]

/-! ### The record entered -/

/-- With or without BRANCH_SUSPECT, the judged record is the branch's record. -/
@[simp] theorem enterJudged_drip_same (b : BranchId) (before : SuspectLevel) (x : Accumulator) (s : State) :
    (enterJudged b before x s).drip b = x := by
  unfold enterJudged
  split <;> simp

/-- The record that a report makes of an exposed branch's (R138, R139); `dripUpdate_exposed` ties it to the update. -/
def judgedDrip (s : State) (b : BranchId) : Accumulator :=
  let a := accumulate s.params (imbalanceOf (s.measure b)) (s.drip b).amount
  { amount := a
    level := judgeLevel s.params.dripThreshold a (s.drip b).level
    lastImbalance := imbalanceOf (s.measure b) }

theorem dripUpdate_exposed {s : State} {b : BranchId} (exposed : (s.branch b).state.isExposed = true) :
    dripUpdate s b = enterJudged b (s.drip b).level (judgedDrip s b) s :=
  if_pos exposed

theorem dripUpdate_passedOver {s : State} {b : BranchId} (notExposed : ¬ (s.branch b).state.isExposed = true) :
    dripUpdate s b = s :=
  if_neg notExposed

theorem dripUpdate_drip {s : State} {b : BranchId} (exposed : (s.branch b).state.isExposed = true) :
    (dripUpdate s b).drip b = judgedDrip s b := by
  rw [dripUpdate_exposed exposed, enterJudged_drip_same]

/-- Settles O38: a branch not exposed is passed over; of an exposed one the record is `judgedDrip`, whose amount follows
R138, whose level has one clause for each band of R139, and which is entered with its report at a rise. -/
theorem accumulatorsRiseAndDecay : Obligations.AccumulatorsRiseAndDecay := by
  intro s b p i a t
  simp only [← BranchState.isExposed_iff]
  refine ⟨dripUpdate_passedOver, fun exposed => ?_⟩
  have record : t.drip b = judgedDrip s b := dripUpdate_drip exposed
  rw [record]
  refine ⟨rfl, accumulate_rises a, accumulate_decays a, ⟨?hard, ?suspect, ?kept, ?none⟩, dripUpdate_exposed exposed⟩
  case hard => exact judgeLevel_hard _
  case suspect => exact judgeLevel_suspect _
  case kept => exact judgeLevel_kept _
  case none => exact judgeLevel_none _

end Sys2Proof.Machine

/-! ## The debounced zone (R141) -/

namespace Sys2Proof.Machine

open Sys2Proof

/-! ### The counts -/

theorem Zone.count_dry_dry {x : Zone} (dry : x.state = .dry) : x.count .dry = { x with state := .dry, rise := 0 } := by
  simp only [Zone.count, dry]

theorem Zone.count_dry_raised {x : Zone} {level : ZoneLevel} (dry : x.state = .dry) (raised : level ≠ .dry) :
    x.count level = { x with state := .dry, rise := x.rise + 1 } := by
  cases level with
  | dry => exact absurd rfl raised
  | damp | wet => simp only [Zone.count, dry]

theorem Zone.count_damp_dry {x : Zone} (damp : x.state = .damp) :
    x.count .dry = { x with state := .damp, rise := 0, dry := x.dry + 1 } := by
  simp only [Zone.count, damp]

theorem Zone.count_damp_damp {x : Zone} (damp : x.state = .damp) :
    x.count .damp = { x with state := .damp, rise := 0, dry := 0 } := by
  simp only [Zone.count, damp]

theorem Zone.count_damp_wet {x : Zone} (damp : x.state = .damp) :
    x.count .wet = { x with state := .damp, rise := x.rise + 1, dry := 0 } := by
  simp only [Zone.count, damp]

theorem Zone.count_wet_dry {x : Zone} (wet : x.state = .wet) :
    x.count .dry = { x with state := .wet, dry := min (x.dry + 1) 20 } := by
  simp only [Zone.count, wet]

theorem Zone.count_wet_raised {x : Zone} {level : ZoneLevel} (wet : x.state = .wet) (raised : level ≠ .dry) :
    x.count level = { x with state := .wet, dry := 0 } := by
  cases level with
  | dry => exact absurd rfl raised
  | damp | wet => simp only [Zone.count, wet]

/-! ### The steps

What the zone does once its counts, called `x`, have been moved by the report. -/

section Intake

variable {s : State} {z : SegId} {level : ZoneLevel} {x : Zone} (counted : (s.zone z).count level = x)
include counted

theorem zoneIntake_dry_stays (dry : x.state = .dry) (few : x.rise < 3) : zoneIntake z level s = s.setZone z x := by
  simp only [zoneIntake, counted, dry, if_neg (not_le.mpr few)]

theorem zoneIntake_dry_rises (dry : x.state = .dry) (third : 3 ≤ x.rise) :
    zoneIntake z level s = report .zoneDamp (.zone z) none (s.setZone z (x.become .damp)) := by
  simp only [zoneIntake, counted, dry, if_pos third]

theorem zoneIntake_damp_stays (damp : x.state = .damp) (few : x.rise < 3) (fewDry : x.dry < 20) :
    zoneIntake z level s = s.setZone z x := by
  simp only [zoneIntake, counted, damp, if_neg (not_le.mpr few), if_neg (not_le.mpr fewDry)]

theorem zoneIntake_damp_rises (damp : x.state = .damp) (third : 3 ≤ x.rise) :
    zoneIntake z level s = report .zoneWet (.zone z) none (s.setZone z (x.become .wet)) := by
  simp only [zoneIntake, counted, damp, if_pos third]

theorem zoneIntake_damp_dries (damp : x.state = .damp) (few : x.rise < 3) (twentieth : 20 ≤ x.dry) :
    zoneIntake z level s = s.setZone z (x.become .dry) := by
  simp only [zoneIntake, counted, damp, if_neg (not_le.mpr few), if_pos twentieth]

theorem zoneIntake_wet_stays (wet : x.state = .wet) : zoneIntake z level s = s.setZone z x := by
  simp only [zoneIntake, counted, wet]

end Intake

/-- Settles O39: in each cell of R141's table the moved counts, then the step they allow. -/
theorem zonesAreDebounced : Obligations.ZonesAreDebounced := by
  intro s z level x t becomes
  refine ⟨fun dry reported _ => ?dryAtDry, fun dry raised few => ?dryCountsRise, fun dry raised second => ?dryToDamp,
    fun damp reported few => ?dampCountsDry, fun damp reported last => ?dampToDry, fun damp reported => ?dampAtDamp,
    fun damp reported few => ?dampCountsRise, fun damp reported second => ?dampToWet, fun wet reported => ?wetCountsDry,
    fun wet raised => ?wetRaised, rfl⟩
  case dryAtDry =>
    subst reported
    exact zoneIntake_dry_stays (Zone.count_dry_dry dry) rfl (Nat.succ_pos _)
  case dryCountsRise => exact zoneIntake_dry_stays (Zone.count_dry_raised dry raised) rfl (Nat.succ_lt_succ few)
  case dryToDamp =>
    exact (zoneIntake_dry_rises (Zone.count_dry_raised dry raised) rfl (Nat.succ_le_succ second.ge)).trans rfl
  case dampCountsDry =>
    subst reported
    exact zoneIntake_damp_stays (Zone.count_damp_dry damp) rfl (Nat.succ_pos _) (Nat.succ_lt_succ few)
  case dampToDry =>
    subst reported
    exact (zoneIntake_damp_dries (Zone.count_damp_dry damp) rfl (Nat.succ_pos _) (Nat.succ_le_succ last.ge)).trans rfl
  case dampAtDamp =>
    subst reported
    exact zoneIntake_damp_stays (Zone.count_damp_damp damp) rfl (Nat.succ_pos _) (Nat.succ_pos _)
  case dampCountsRise =>
    subst reported
    exact zoneIntake_damp_stays (Zone.count_damp_wet damp) rfl (Nat.succ_lt_succ few) (Nat.succ_pos _)
  case dampToWet =>
    subst reported
    exact (zoneIntake_damp_rises (Zone.count_damp_wet damp) rfl (Nat.succ_le_succ second.ge)).trans rfl
  case wetCountsDry =>
    subst reported
    exact zoneIntake_wet_stays (Zone.count_wet_dry wet) rfl
  case wetRaised => exact zoneIntake_wet_stays (Zone.count_wet_raised wet raised) rfl

end Sys2Proof.Machine

/-! ## The notices and the attention lines (R178, R179) -/

namespace Sys2Proof.Machine

open Sys2Proof

/-! ### Two-byte fields of a body -/

@[simp] theorem length_byte2 (n : Nat) : (byte2 n).length = 2 := rfl

/-- A two-byte field reads back what was written to it, high byte first (R183). -/
theorem at2_byte2 {n : Nat} (fits : n < 65536) : at2 (byte2 n) 0 = n := by
  have high : at1 (byte2 n) 0 = n / 256 % 256 := BitVec.toNat_ofNat _ _
  have low : at1 (byte2 n) 1 = n % 256 := BitVec.toNat_ofNat _ _
  simp only [at2, high, low]
  omega

theorem mem_anyPort (p : Port) : p ∈ anyPort := by cases p <;> decide

/-! ### READ_NOTICES and SET_NOTICE_MASK as requests -/

theorem exec_readNotices (p : Port) (body : List Byte) (s : State) :
    exec (.readNotices p body) s = request p 0x08 [0] anyPort body (readNotices p) s := rfl

theorem exec_setNoticeMask (p : Port) (body : List Byte) (s : State) :
    exec (.setNoticeMask p body) s = request p 0x09 [2] anyPort body (setNoticeMask p (at2 body 0)) s := rfl

theorem exec_readNotices_ready {s : State} {p : Port} (ready : Ready s p) :
    exec (.readNotices p []) s = .next ((readNotices p s).2.answering p 0x08 (readNotices p s).1) := by
  rw [exec_readNotices, request_handled ready (by simp) (mem_anyPort p)]

/-- Two bytes of enables reach SET_NOTICE_MASK's own check as the number they spell. -/
theorem exec_setNoticeMask_ready {s : State} {p : Port} (ready : Ready s p) {n : Nat} (fits : n < 65536) :
    exec (.setNoticeMask p (byte2 n)) s =
      .next ((setNoticeMask p n s).2.answering p 0x09 (setNoticeMask p n s).1) := by
  rw [exec_setNoticeMask, request_handled ready (by simp) (mem_anyPort p), at2_byte2 fits]

theorem setNoticeMask_replaced (p : Port) {n : Nat} (ten : n < 1024) (s : State) :
    setNoticeMask p n s = (Reply.plain .ok, s.setPort p { s.port p with mask := BitVec.ofNat 10 n }) :=
  if_neg (not_le.mpr ten)

theorem setNoticeMask_refused (p : Port) {n : Nat} (outside : 1024 ≤ n) (s : State) :
    setNoticeMask p n s = refuse .badValue s :=
  if_pos outside

/-! ### The attention line (R178, R181) -/

/-- Two words share a set bit exactly where their conjunction is not zero. -/
theorem and_ne_zero_iff_exists_bit {w : Nat} (x y : BitVec w) :
    x &&& y ≠ 0 ↔ ∃ n : Fin w, x[n.val] = true ∧ y[n.val] = true := by
  have noneShared : x &&& y = 0 ↔ ∀ n : Fin w, ¬ (x[n.val] = true ∧ y[n.val] = true) := by
    constructor
    · intro zero n both
      have bit : (x &&& y)[n.val] = false := by rw [zero]; exact BitVec.getElem_zero n.isLt
      simp [BitVec.getElem_and, both] at bit
    · intro apart
      refine BitVec.eq_of_getElem_eq fun i hi => ?_
      simpa using apart ⟨i, hi⟩
  rw [ne_eq, noneShared, not_forall_not]

theorem attention_iff (s : State) (p : Port) :
    attention s p = true ↔ s.loading = false ∧ (s.port p).flags &&& (s.port p).mask ≠ 0 := by
  simp [attention]

/-- Settles O10: the two requests' answers and effects, then the attention line category by category. -/
theorem noticesAreReadAndMasked : Obligations.NoticesAreReadAndMasked := by
  refine ⟨fun s p ready => ⟨?read, fun n ten => ?replaced, fun n fits outside => ?refused⟩, fun s p => ?line⟩
  case read => rw [exec_readNotices_ready ready]; rfl
  case replaced => rw [exec_setNoticeMask_ready ready (ten.trans (by decide)), setNoticeMask_replaced p ten]; rfl
  case refused => rw [exec_setNoticeMask_ready ready fits, setNoticeMask_refused p outside]; rfl
  case line => rw [attention_iff, and_ne_zero_iff_exists_bit]

end Sys2Proof.Machine

/-! ## The Incident List (R174, R175) -/

namespace Sys2Proof.Machine

open Sys2Proof

/-! ### The next sequence number that no record carries -/

/-- The numbers passed over are carried by records; the number found is not, unless the fuel ran out. -/
theorem freshSequence_spec (used : List Nat) (fuel : Nat) : ∀ n < 65536,
    ∃ k ≤ fuel, freshSequence used fuel n = (n + k) % 65536 ∧ (∀ j < k, (n + j) % 65536 ∈ used) ∧
      ((n + k) % 65536 ∈ used → k = fuel) := by
  induction fuel with
  | zero => exact fun n fits => ⟨0, le_rfl, (Nat.mod_eq_of_lt fits).symm, by simp, fun _ => rfl⟩
  | succ fuel ih =>
    intro n fits
    have start : (n + 0) % 65536 = n := Nat.mod_eq_of_lt fits
    by_cases carried : n ∈ used
    case neg =>
      exact ⟨0, Nat.zero_le _, by rw [freshSequence, if_neg carried, start], by simp,
        fun again => absurd (start ▸ again) carried⟩
    case pos =>
      obtain ⟨k, within, found, passed, free⟩ := ih ((n + 1) % 65536) (Nat.mod_lt _ (by decide))
      have shift (j : Nat) : ((n + 1) % 65536 + j) % 65536 = (n + (j + 1)) % 65536 := by omega
      rw [shift] at found free
      refine ⟨k + 1, Nat.succ_le_succ within, by rw [freshSequence, if_pos carried, found], fun j below => ?_,
        fun last => congrArg Nat.succ (free last)⟩
      cases j with
      | zero => rwa [start]
      | succ j => rw [← shift]; exact passed j (Nat.lt_of_succ_lt_succ below)

/-- A run of consecutive numbers that records carry is no longer than the list: they differ from each other. -/
theorem carried_run_length_le {used : List Nat} {n k : Nat} (short : k ≤ 65536)
    (carried : ∀ j < k, (n + j) % 65536 ∈ used) : k ≤ used.length := by
  have distinct : ((List.range k).map fun j => (n + j) % 65536).Nodup := by
    refine List.Nodup.map_on (fun i hi j hj same => ?_) List.nodup_range
    rw [List.mem_range] at hi hj
    omega
  have among : ((List.range k).map fun j => (n + j) % 65536) ⊆ used := by
    simpa [List.subset_def] using carried
  simpa using (distinct.subperm among).length_le

/-- R174: with fewer than 32 numbers in use, the number found is the first from `n` on that is free. -/
theorem freshSequence_free {used : List Nat} (few : used.length < 32) {n : Nat} (fits : n < 65536) :
    ∃ k ≤ 32, freshSequence used 32 n = (n + k) % 65536 ∧ (n + k) % 65536 ∉ used ∧
      ∀ j < k, (n + j) % 65536 ∈ used := by
  obtain ⟨k, within, found, passed, last⟩ := freshSequence_spec used 32 n fits
  have bound : k ≤ used.length := carried_run_length_le (within.trans (by decide)) passed
  refine ⟨k, within, found, fun carried => ?_, passed⟩
  have spent : k = 32 := last carried
  omega

/-! ### The three cases of R174 -/

theorem Incident.matches_iff (kind : Kind) (subject : Subject) (r : Incident) :
    r.matches kind subject = true ↔ r.kind = kind ∧ r.subject = subject := by
  simp [Incident.matches]

theorem any_matches_iff (kind : Kind) (subject : Subject) (records : List Incident) :
    records.any (Incident.matches kind subject) = true ↔ ∃ r ∈ records, r.kind = kind ∧ r.subject = subject := by
  simp [List.any_eq_true, Incident.matches_iff]

section Report

variable {s : State} {kind : Kind} {subject : Subject} (detail : Option Int)

/-- Case 1: a listed kind and subject. -/
theorem report_merged (known : ∃ r ∈ s.incidents.records, r.kind = kind ∧ r.subject = subject) :
    report kind subject detail s = { s with incidents := { s.incidents with
      records := s.incidents.records.map fun r =>
        if r.kind = kind ∧ r.subject = subject then r.merge s.uptime (detail.map detailRange) else r } } := by
  simp only [report, IncidentList.take, if_pos ((any_matches_iff ..).mpr known), Incident.matches_iff]
  rfl

/-- Case 2: a new kind and subject, with room in the list. -/
theorem report_appended (new : ¬ ∃ r ∈ s.incidents.records, r.kind = kind ∧ r.subject = subject)
    (room : s.incidents.records.length < 32) {n : Nat}
    (free : freshSequence (s.incidents.records.map (·.sequence)) 32 s.incidents.next = n) :
    report kind subject detail s = notifyAll .incident { s with incidents := { s.incidents with
      records := s.incidents.records ++ [{ sequence := n, kind := kind, subject := subject, firstTime := s.uptime,
                                            lastTime := s.uptime, count := 1, detail := detail.map detailRange }]
      next := (n + 1) % 65536 } } := by
  simp only [report, IncidentList.take, if_neg (mt (any_matches_iff ..).mp new), if_pos room, free]
  rfl

/-- Case 3: a new kind and subject, with the list full. -/
theorem report_overflowed (new : ¬ ∃ r ∈ s.incidents.records, r.kind = kind ∧ r.subject = subject)
    (full : 32 ≤ s.incidents.records.length) :
    report kind subject detail s =
      { s with incidents := { s.incidents with overflow := min (s.incidents.overflow + 1) 255 } } := by
  simp only [report, IncidentList.take, if_neg (mt (any_matches_iff ..).mp new), if_neg (not_lt.mpr full)]
  rfl

end Report

/-! ### ACK_INCIDENT (R175) -/

theorem ackIncident_removed {s : State} {n : Nat} (carried : ∃ r ∈ s.incidents.records, r.sequence = n) :
    ackIncident n s = (Reply.plain .ok, { s with incidents := s.incidents.acknowledge n }) :=
  if_pos (by simpa using carried)

theorem ackIncident_notFound {s : State} {n : Nat} (free : ∀ r ∈ s.incidents.records, r.sequence ≠ n) :
    ackIncident n s = refuse .notFound s :=
  if_neg (by simpa using free)

theorem exec_ackIncident (p : Port) (body : List Byte) (s : State) :
    exec (.ackIncident p body) s = request p 0x3C [2] [.rm, .sp] body (ackIncident (at2 body 0)) s := rfl

/-- On RM and SP two bytes reach ACK_INCIDENT's own check as the number they spell. -/
theorem exec_ackIncident_permitted {s : State} {p : Port} (ready : Ready s p) (permitted : p = .rm ∨ p = .sp) {n : Nat}
    (fits : n < 65536) :
    exec (.ackIncident p (byte2 n)) s = .next ((ackIncident n s).2.answering p 0x3C (ackIncident n s).1) := by
  rw [exec_ackIncident, request_handled ready (by simp) (by simpa using permitted), at2_byte2 fits]

/-- Settles O47: the three cases of R174, the two outcomes of R175 on RM and SP, and the refusal on UA and UB. -/
theorem reportsAreListedAndAcknowledged : Obligations.ReportsAreListedAndAcknowledged := by
  refine ⟨fun s kind subject detail => ⟨report_merged detail, fun new room fits => ?appended, report_overflowed detail⟩,
    fun s p n ready permitted fits => ⟨fun carried => ?removed, fun free => ?notFound⟩, fun s p n ready other => ?refused⟩
  case appended =>
    have few : (s.incidents.records.map (·.sequence)).length < 32 := by simpa using room
    obtain ⟨k, within, found, free, passed⟩ := freshSequence_free few fits
    refine ⟨k, within, by simpa using free, by simpa using passed, report_appended detail new room found⟩
  case removed => rw [exec_ackIncident_permitted ready permitted fits, ackIncident_removed carried]; rfl
  case notFound => rw [exec_ackIncident_permitted ready permitted fits, ackIncident_notFound free]; rfl
  case refused =>
    have notAllowed : p ∉ [Port.rm, .sp] := by rcases other with rfl | rfl <;> decide
    rw [exec_ackIncident, request_notPermitted ready (by simp) notAllowed]; rfl

end Sys2Proof.Machine

/-! ## Resolved demand and the fit (R86, R88 to R93) -/

namespace Sys2Proof.Machine

open Sys2Proof

/-! ### Sums over shares -/

theorem sumOver_append {α : Type} (xs ys : List α) (f : α → Nat) : sumOver (xs ++ ys) f = sumOver xs f + sumOver ys f := by
  simp [sumOver]

theorem sumOver_cons {α : Type} (x : α) (xs : List α) (f : α → Nat) : sumOver (x :: xs) f = f x + sumOver xs f := by
  simp [sumOver]

theorem sumOver_map {α β : Type} (xs : List α) (g : α → β) (f : β → Nat) : sumOver (xs.map g) f = sumOver xs (f ∘ g) := by
  simp [sumOver]

theorem sumOver_le {α : Type} {xs : List α} {f g : α → Nat} (h : ∀ x ∈ xs, f x ≤ g x) : sumOver xs f ≤ sumOver xs g :=
  List.sum_le_sum h

theorem sumOver_add {α : Type} (xs : List α) (f g : α → Nat) : sumOver xs (fun x => f x + g x) = sumOver xs f + sumOver xs g :=
  List.sum_map_add

theorem sumOver_mul {α : Type} (xs : List α) (k : Nat) (f : α → Nat) : sumOver xs (fun x => k * f x) = k * sumOver xs f :=
  List.sum_map_mul_left xs f k

/-- A list parted by a test keeps its sum. -/
theorem sumOver_filter_add {α : Type} (xs : List α) (p : α → Bool) (f : α → Nat) :
    sumOver (xs.filter p) f + sumOver (xs.filter fun x => !p x) f = sumOver xs f := by
  rw [← sumOver_append]
  exact ((List.filter_append_perm p xs).map f).sum_eq

/-- Floors and headrooms together make the resolved demands (R88). -/
theorem sumOver_resolved {xs : List Share} (ordered : ∀ x ∈ xs, x.floor ≤ x.resolved) :
    sumOver xs (·.resolved) = sumOver xs (·.floor) + sumOver xs Share.headroom := by
  rw [← sumOver_add]
  refine congrArg List.sum (List.map_congr_left fun x hx => ?_)
  have := ordered x hx
  simp only [Share.headroom]
  omega

/-! ### One pass of the water-fill (R92) -/

/-- The shares a pass fixes at their resolved demand (R92, step 3). -/
def fixedShares (spare : Nat) (xs : List Share) : List Share := xs.filter (Share.fixes spare (weightedHeadroom xs))

/-- The shares a pass leaves to the next one. -/
def looseShares (spare : Nat) (xs : List Share) : List Share := xs.filter fun x => !x.fixes spare (weightedHeadroom xs)

theorem waterFill_final {fuel spare : Nat} {xs : List Share} (none : fixedShares spare xs = []) :
    waterFill (fuel + 1) spare xs = (xs.map fun x => (x.branch, x.finalTarget spare (weightedHeadroom xs)), 1) :=
  if_pos none

theorem waterFill_fixing {fuel spare : Nat} {xs : List Share} (some : fixedShares spare xs ≠ []) :
    waterFill (fuel + 1) spare xs =
      let rest := waterFill fuel (spare - sumOver (fixedShares spare xs) Share.headroom) (looseShares spare xs)
      ((fixedShares spare xs).map (fun x => (x.branch, x.resolved)) ++ rest.1, rest.2 + 1) :=
  if_neg some

theorem mem_of_mem_fixedShares {spare : Nat} {xs : List Share} {x : Share} (h : x ∈ fixedShares spare xs) : x ∈ xs :=
  List.mem_of_mem_filter h

theorem mem_of_mem_looseShares {spare : Nat} {xs : List Share} {x : Share} (h : x ∈ looseShares spare xs) : x ∈ xs :=
  List.mem_of_mem_filter h

/-- A pass that fixes shares leaves fewer. -/
theorem length_looseShares {spare : Nat} {xs : List Share} (some : fixedShares spare xs ≠ []) :
    (looseShares spare xs).length < xs.length := by
  have parted := (List.filter_append_perm (Share.fixes spare (weightedHeadroom xs)) xs).length_eq
  have fixes := List.length_pos_iff.mpr some
  rw [List.length_append] at parted
  simp only [fixedShares, looseShares] at *
  omega

/-- R93: the headroom of the shares a pass fixes does not exceed the spare. Each of them has more than its part by weight,
and so has the one of the least weight. -/
theorem headroom_fixedShares_le (spare : Nat) (xs : List Share) : sumOver (fixedShares spare xs) Share.headroom ≤ spare := by
  by_cases none : fixedShares spare xs = []
  · simp [none, sumOver]
  obtain ⟨m, least, minimal⟩ := (fixedShares spare xs).toFinset.exists_min_image Share.weight
    (List.toFinset_nonempty_iff _ |>.mpr none)
  simp only [List.mem_toFinset] at least minimal
  have passes : weightedHeadroom xs < spare * m.weight := by
    have := List.of_mem_filter least
    simpa [Share.fixes] using this
  have part : weightedHeadroom (fixedShares spare xs) ≤ weightedHeadroom xs :=
    (Nat.le_add_right _ _).trans (sumOver_filter_add xs _ _).le
  have weighed : m.weight * sumOver (fixedShares spare xs) Share.headroom ≤ weightedHeadroom (fixedShares spare xs) := by
    rw [← sumOver_mul]
    exact sumOver_le fun x hx => Nat.mul_le_mul_right _ (minimal x hx)
  have : m.weight * sumOver (fixedShares spare xs) Share.headroom < m.weight * spare := by
    rw [Nat.mul_comm m.weight spare]; omega
  exact (Nat.lt_of_mul_lt_mul_left this).le

/-! ### The targets, the passes and the budget -/

theorem Share.finalTarget_bounds {spare : Nat} {xs : List Share} {x : Share} (ordered : x.floor ≤ x.resolved)
    (loose : x.fixes spare (weightedHeadroom xs) = false) :
    x.floor ≤ x.finalTarget spare (weightedHeadroom xs) ∧ x.finalTarget spare (weightedHeadroom xs) ≤ x.resolved := by
  have part : spare * x.weight ≤ weightedHeadroom xs := by simpa [Share.fixes] using loose
  have share : spare * x.weight * x.headroom / weightedHeadroom xs ≤ x.headroom :=
    Nat.div_le_of_le_mul (Nat.mul_le_mul_right _ part)
  have headroom : x.headroom = x.resolved - x.floor := rfl
  exact ⟨Nat.le_add_right _ _, (Nat.add_le_add_left share _).trans (by omega)⟩

theorem loose_of_none_fixed {spare : Nat} {xs : List Share} (none : fixedShares spare xs = []) {x : Share} (h : x ∈ xs) :
    x.fixes spare (weightedHeadroom xs) = false := by
  simpa using List.filter_eq_nil_iff.mp none x h

/-- The shares of the spare that the last pass gives do not exceed it. -/
theorem sumOver_finalTarget_le (spare : Nat) (xs : List Share) :
    sumOver xs (Share.finalTarget spare (weightedHeadroom xs)) ≤ sumOver xs (·.floor) + spare := by
  have split : sumOver xs (Share.finalTarget spare (weightedHeadroom xs)) =
      sumOver xs (·.floor) + sumOver xs fun x => spare * x.weight * x.headroom / weightedHeadroom xs := sumOver_add ..
  rw [split]
  refine Nat.add_le_add_left ?_ _
  have divided : ∀ ys : List Share, (sumOver ys fun x => spare * x.weight * x.headroom / weightedHeadroom xs) ≤
      spare * weightedHeadroom ys / weightedHeadroom xs := by
    intro ys
    induction ys with
    | nil => simp [sumOver]
    | cons y ys ih =>
      rw [sumOver_cons, show weightedHeadroom (y :: ys) = y.weight * y.headroom + weightedHeadroom ys from sumOver_cons ..,
        Nat.mul_add, ← Nat.mul_assoc]
      exact (Nat.add_le_add_left ih _).trans Nat.div_add_div_le_add_div
  exact (divided xs).trans (Nat.div_le_of_le_mul (Nat.mul_comm _ _).le)

/-- Every target of a water-fill lies between the floor and the resolved demand of its branch. -/
theorem waterFill_bounds {fuel : Nat} : ∀ {spare : Nat} {xs : List Share}, (∀ x ∈ xs, x.floor ≤ x.resolved) →
    ∀ y ∈ (waterFill fuel spare xs).1, ∃ x ∈ xs, y.1 = x.branch ∧ x.floor ≤ y.2 ∧ y.2 ≤ x.resolved := by
  induction fuel with
  | zero =>
    intro spare xs ordered y hy
    obtain ⟨x, hx, rfl⟩ := List.mem_map.mp hy
    exact ⟨x, hx, rfl, le_rfl, ordered x hx⟩
  | succ fuel ih =>
    intro spare xs ordered y hy
    by_cases none : fixedShares spare xs = []
    case pos =>
      rw [waterFill_final none] at hy
      obtain ⟨x, hx, rfl⟩ := List.mem_map.mp hy
      exact ⟨x, hx, rfl, Share.finalTarget_bounds (ordered x hx) (loose_of_none_fixed none hx)⟩
    case neg =>
      rw [waterFill_fixing none] at hy
      rcases List.mem_append.mp hy with fixed | loose
      · obtain ⟨x, hx, rfl⟩ := List.mem_map.mp fixed
        exact ⟨x, mem_of_mem_fixedShares hx, rfl, ordered x (mem_of_mem_fixedShares hx), le_rfl⟩
      · obtain ⟨x, hx, bounds⟩ := ih (fun x hx => ordered x (mem_of_mem_looseShares hx)) y loose
        exact ⟨x, mem_of_mem_looseShares hx, bounds⟩

theorem waterFill_passes_le (fuel spare : Nat) (xs : List Share) : (waterFill fuel spare xs).2 ≤ fuel := by
  induction fuel generalizing spare xs with
  | zero => exact le_rfl
  | succ fuel ih =>
    by_cases none : fixedShares spare xs = []
    · rw [waterFill_final none]; exact Nat.succ_pos fuel
    · rw [waterFill_fixing none]; exact Nat.succ_le_succ (ih _ _)

/-- The targets of a water-fill stay within the floors and the spare. -/
theorem waterFill_sum_le {fuel : Nat} : ∀ {spare : Nat} {xs : List Share}, (∀ x ∈ xs, x.floor ≤ x.resolved) →
    sumOver (waterFill fuel spare xs).1 (·.2) ≤ sumOver xs (·.floor) + spare := by
  induction fuel with
  | zero => intro spare xs _; simp [waterFill, sumOver_map, Function.comp_def]
  | succ fuel ih =>
    intro spare xs ordered
    by_cases none : fixedShares spare xs = []
    case pos =>
      rw [waterFill_final none]
      simpa only [sumOver_map, Function.comp_def] using sumOver_finalTarget_le spare xs
    case neg =>
      have rest := ih (spare := spare - sumOver (fixedShares spare xs) Share.headroom)
        fun x (hx : x ∈ looseShares spare xs) => ordered x (mem_of_mem_looseShares hx)
      have fixed := sumOver_resolved fun x (hx : x ∈ fixedShares spare xs) => ordered x (mem_of_mem_fixedShares hx)
      have floors := sumOver_filter_add xs (Share.fixes spare (weightedHeadroom xs)) (·.floor)
      have spent := headroom_fixedShares_le spare xs
      rw [waterFill_fixing none]
      simp only [sumOver_append, sumOver_map, Function.comp_def]
      simp only [fixedShares, looseShares] at *
      omega

/-! ### The rounds of a water-fill -/

/-- The spare and the unfixed shares at the start of each pass; `waterFill_rounds` ties them to the water-fill. -/
def roundsOf : Nat → Nat → List Share → List (Nat × List Share)
  | 0, _, _ => []
  | fuel + 1, spare, xs =>
    (spare, xs) ::
      if fixedShares spare xs = [] then []
      else roundsOf fuel (spare - sumOver (fixedShares spare xs) Share.headroom) (looseShares spare xs)

theorem roundsOf_final {fuel spare : Nat} {xs : List Share} (none : fixedShares spare xs = []) :
    roundsOf (fuel + 1) spare xs = [(spare, xs)] := by
  rw [roundsOf, if_pos none]

theorem roundsOf_fixing {fuel spare : Nat} {xs : List Share} (some : fixedShares spare xs ≠ []) :
    roundsOf (fuel + 1) spare xs = (spare, xs) ::
      roundsOf fuel (spare - sumOver (fixedShares spare xs) Share.headroom) (looseShares spare xs) := by
  rw [roundsOf, if_neg some]

theorem roundsOf_length (fuel spare : Nat) (xs : List Share) :
    (roundsOf fuel spare xs).length = (waterFill fuel spare xs).2 := by
  induction fuel generalizing spare xs with
  | zero => rfl
  | succ fuel ih =>
    by_cases none : fixedShares spare xs = []
    · rw [roundsOf_final none, waterFill_final none]; rfl
    · rw [roundsOf_fixing none, waterFill_fixing none, List.length_cons, ih]

/-- A round that another follows has fixed shares, and the other goes on without them. -/
theorem roundsOf_next {fuel : Nat} : ∀ {spare : Nat} {xs : List Share} {k sp : Nat} {ys : List Share}
    {next : Nat × List Share}, (roundsOf fuel spare xs)[k]? = some (sp, ys) → (roundsOf fuel spare xs)[k + 1]? = some next →
    fixedShares sp ys ≠ [] ∧ next = (sp - sumOver (fixedShares sp ys) Share.headroom, looseShares sp ys) := by
  induction fuel with
  | zero => intro _ _ _ _ _ _ here _; simp [roundsOf] at here
  | succ fuel ih =>
    intro spare xs k sp ys next here there
    by_cases none : fixedShares spare xs = []
    case pos => simp [roundsOf_final none] at there
    case neg =>
      rw [roundsOf_fixing none] at here there
      cases k with
      | succ k => exact ih here there
      | zero =>
        obtain ⟨rfl, rfl⟩ : spare = sp ∧ xs = ys := by simpa using here
        refine ⟨none, ?_⟩
        cases fuel with
        | zero => simp [roundsOf] at there
        | succ fuel => simpa [roundsOf] using there.symm

/-- R92: with fuel enough and less spare than headroom, the last round fixes none; its shares have their part of the spare,
every other one its resolved demand. -/
theorem waterFill_rounds {fuel : Nat} : ∀ {spare : Nat} {xs : List Share}, xs.length ≤ fuel →
    spare < sumOver xs Share.headroom →
    (roundsOf fuel spare xs).head? = some (spare, xs) ∧
    ∃ sp ys, (roundsOf fuel spare xs).getLast? = some (sp, ys) ∧ fixedShares sp ys = [] ∧ ys ⊆ xs ∧
      (waterFill fuel spare xs).1.Perm
        (xs.map fun x => (x.branch, if x ∈ ys then x.finalTarget sp (weightedHeadroom ys) else x.resolved)) := by
  induction fuel with
  | zero =>
    intro spare xs short less
    simp [List.eq_nil_of_length_eq_zero (Nat.le_zero.mp short), sumOver] at less
  | succ fuel ih =>
    intro spare xs short less
    by_cases none : fixedShares spare xs = []
    case pos =>
      rw [roundsOf_final none, waterFill_final none]
      refine ⟨rfl, spare, xs, rfl, none, List.Subset.refl _, List.Perm.of_eq (List.map_congr_left fun x hx => ?_)⟩
      rw [if_pos hx]
    case neg =>
      have fewer := length_looseShares none
      have parted := sumOver_filter_add xs (Share.fixes spare (weightedHeadroom xs)) Share.headroom
      have spent := headroom_fixedShares_le spare xs
      have stillLess : spare - sumOver (fixedShares spare xs) Share.headroom <
          sumOver (looseShares spare xs) Share.headroom := by
        simp only [fixedShares, looseShares] at *; omega
      obtain ⟨head, sp, ys, last, final, among, targets⟩ := ih (by omega) stillLess
      rw [roundsOf_fixing none, waterFill_fixing none]
      refine ⟨rfl, sp, ys, ?_, final, fun x hx => mem_of_mem_looseShares (among hx), ?_⟩
      · rw [List.getLast?_cons, last]; rfl
      · have fixedKept : (fixedShares spare xs).map (fun x => (x.branch, x.resolved)) = (fixedShares spare xs).map fun x =>
            (x.branch, if x ∈ ys then x.finalTarget sp (weightedHeadroom ys) else x.resolved) := by
          refine List.map_congr_left fun x hx => ?_
          have fixes := List.of_mem_filter hx
          have : x ∉ ys := fun later => by simpa [fixes] using List.of_mem_filter (among later)
          rw [if_neg this]
        rw [fixedKept]
        exact (targets.append_left _).trans (by
          rw [← List.map_append]
          exact (List.filter_append_perm _ xs).map _)

/-! ### The case of a cycle (R87, R90, R91) -/

section Fit

variable {available : Nat} {xs : List Share}

theorem fitShares_unsqueezed (fits : sumOver xs (·.resolved) ≤ available) : fitShares (some available) xs =
    { fit := .unsqueezed, targets := xs.map fun x => (x.branch, x.resolved), passes := 0 } :=
  if_pos fits

theorem fitShares_breach (squeezed : available < sumOver xs (·.resolved)) (below : available < sumOver xs (·.floor)) :
    fitShares (some available) xs = { fit := .breach, targets := atFloors xs, passes := 0 } :=
  (if_neg (not_le.mpr squeezed)).trans (if_pos below)

theorem fitShares_waterFill (squeezed : available < sumOver xs (·.resolved)) (covered : sumOver xs (·.floor) ≤ available) :
    fitShares (some available) xs =
      { fit := .waterFill, targets := (waterFill 48 (available - sumOver xs (·.floor)) xs).1,
        passes := (waterFill 48 (available - sumOver xs (·.floor)) xs).2 } :=
  (if_neg (not_le.mpr squeezed)).trans (if_neg (not_lt.mpr covered))

/-- R94: the targets of every case lie between the floor and the resolved demand. -/
theorem fitShares_bounds (budget : Option Nat) (ordered : ∀ x ∈ xs, x.floor ≤ x.resolved) :
    ∀ y ∈ (fitShares budget xs).targets, ∃ x ∈ xs, y.1 = x.branch ∧ x.floor ≤ y.2 ∧ y.2 ≤ x.resolved := by
  have floors : ∀ y ∈ atFloors xs, ∃ x ∈ xs, y.1 = x.branch ∧ x.floor ≤ y.2 ∧ y.2 ≤ x.resolved := by
    intro y hy
    obtain ⟨x, hx, rfl⟩ := List.mem_map.mp hy
    exact ⟨x, hx, rfl, le_rfl, ordered x hx⟩
  cases budget with
  | none => exact floors
  | some available =>
    rcases Nat.lt_or_ge available (sumOver xs (·.resolved)) with squeezed | fits
    case inr =>
      rw [fitShares_unsqueezed fits]
      intro y hy
      obtain ⟨x, hx, rfl⟩ := List.mem_map.mp hy
      exact ⟨x, hx, rfl, ordered x hx, le_rfl⟩
    case inl =>
      rcases Nat.lt_or_ge available (sumOver xs (·.floor)) with below | covered
      · rw [fitShares_breach squeezed below]; exact floors
      · rw [fitShares_waterFill squeezed covered]; exact waterFill_bounds ordered

end Fit

/-! ### Stages 1 and 2 (R86, R88) -/

theorem isHot_iff (s : State) (b : BranchId) :
    isHot s b = true ↔ ∃ t, (s.measure b).temperature = some t ∧ s.params.hotLimit ≤ t := by
  unfold isHot
  cases (s.measure b).temperature <;> simp

/-- The demand of a branch before it is brought into floor to cap (R88). -/
def baseDemand (s : State) (b : BranchId) : Nat :=
  if isHot s b then (s.activePlan b).cap
  else if (s.branch b).state = .setback then (s.activePlan b).floor else (s.activePlan b).demand

theorem resolvedDemand_eq (s : State) (b : BranchId) :
    resolvedDemand s b = max (s.activePlan b).floor (min (baseDemand s b) (s.activePlan b).cap) := rfl

theorem baseDemand_hot {s : State} {b : BranchId} (hot : isHot s b = true) : baseDemand s b = (s.activePlan b).cap :=
  if_pos hot

theorem baseDemand_setback {s : State} {b : BranchId} (cool : ¬ isHot s b = true) (setback : (s.branch b).state = .setback) :
    baseDemand s b = (s.activePlan b).floor :=
  (if_neg cool).trans (if_pos setback)

theorem baseDemand_flowing {s : State} {b : BranchId} (cool : ¬ isHot s b = true) (flowing : (s.branch b).state = .flowing) :
    baseDemand s b = (s.activePlan b).demand :=
  (if_neg cool).trans (if_neg (by simp [flowing]))

/-- R86: the truncated subtraction of the model is the manual's, never below 0. -/
theorem availableBudget_cast (s : State) (budget : Nat) :
    (availableBudget s budget : Int) = max 0 ((budget : Int) - (primingReserve s : Nat) - (pinnedConsumption s : Nat)) := by
  unfold availableBudget
  omega

/-- Settles O23: the water-fill by its rounds, the other cases by their equations, then stages 1 and 2. -/
theorem demandIsResolvedAndFitted : Obligations.DemandIsResolvedAndFitted := by
  refine ⟨fun available xs short ordered => ?fit, fun s b budget => ?stages⟩
  case stages =>
    simp only [← isHot_iff, resolvedDemand_eq]
    refine ⟨availableBudget_cast s budget, fun floorCap => by omega, fun floorCap hot => ?_, fun floorCap cool setback => ?_,
      fun cool flowing above below => ?_, fun floorCap cool flowing below => ?_, fun floorCap cool flowing above => ?_⟩
    · rw [baseDemand_hot hot]; omega
    · rw [baseDemand_setback cool setback]; omega
    all_goals rw [baseDemand_flowing cool flowing]; omega
  case fit =>
    have floors : sumOver xs (·.floor) ≤ sumOver xs (·.resolved) := sumOver_le ordered
    have bounds := fitShares_bounds (some available) ordered
    rcases Nat.lt_or_ge available (sumOver xs (·.resolved)) with squeezed | fits
    case inr =>
      rw [fitShares_unsqueezed fits] at bounds ⊢
      have covered : ¬ available < sumOver xs (·.floor) := by omega
      simp_all [sumOver_map, Function.comp_def]
    case inl =>
      have notFits : ¬ sumOver xs (·.resolved) ≤ available := by omega
      rcases Nat.lt_or_ge available (sumOver xs (·.floor)) with below | covered
      · rw [fitShares_breach squeezed below] at bounds ⊢
        simp_all [atFloors]
      · have notBelow : ¬ available < sumOver xs (·.floor) := by omega
        have less : available - sumOver xs (·.floor) < sumOver xs Share.headroom := by
          have := sumOver_resolved ordered
          omega
        obtain ⟨head, sp, ys, last, final, _, targets⟩ := waterFill_rounds short less
        rw [fitShares_waterFill squeezed covered] at bounds ⊢
        refine ⟨fun _ => ?_, waterFill_passes_le _ _ _, bounds, by simp [notBelow], by simp [notFits], by simp, by simp,
          by simp, fun _ => ⟨_, roundsOf_length _ _ _, head, fun k sp ys next => roundsOf_next, sp, ys, last, final, targets⟩⟩
        have := waterFill_sum_le (fuel := 48) (spare := available - sumOver xs (·.floor)) ordered
        simp only
        omega

end Sys2Proof.Machine

/-! ## One allotment cycle (R68, R81, R84 to R99) -/

namespace Sys2Proof.Machine

open Sys2Proof

/-! ### What a report and a write of a branch leave to each other -/

theorem report_withBranches (kind : Kind) (subject : Subject) (detail : Option Int) (s : State) (bs : Vector Branch 48) :
    report kind subject detail { s with branches := bs } = { report kind subject detail s with branches := bs } := by
  by_cases isNew : (s.incidents.take s.uptime kind subject (detail.map detailRange)).2 = true
  · rw [show report kind subject detail s = _ from if_pos isNew]
    exact if_pos isNew
  · rw [show report kind subject detail s = _ from if_neg isNew]
    exact if_neg isNew

/-- A report changes the Incident List and the flags, and nothing else. -/
theorem report_frame (kind : Kind) (subject : Subject) (detail : Option Int) (s : State) :
    report kind subject detail s = { s with
      incidents := (report kind subject detail s).incidents, ports := (report kind subject detail s).ports } := by
  simp only [report]
  split <;> rfl

/-! ### The shares and the targets of the allotting branches -/

theorem mem_branchesIn {s : State} {p : BranchState → Bool} {b : BranchId} :
    b ∈ branchesIn s p ↔ p (s.branch b).state = true := by
  simp [branchesIn, allBranches]

theorem mem_allotting {s : State} {b : BranchId} : b ∈ allotting s ↔ (s.branch b).state.isAllotting = true := mem_branchesIn

theorem branchesIn_nodup (s : State) (p : BranchState → Bool) : (branchesIn s p).Nodup :=
  List.Nodup.filter (fun b => p (s.branch b).state) (List.nodup_finRange 48)

theorem allotting_nodup (s : State) : (allotting s).Nodup := branchesIn_nodup ..

/-- Every share has one target, whatever the case. -/
theorem waterFill_branches (fuel spare : Nat) (xs : List Share) :
    ((waterFill fuel spare xs).1.map (·.1)).Perm (xs.map (·.branch)) := by
  induction fuel generalizing spare xs with
  | zero => simp [waterFill, Function.comp_def]
  | succ fuel ih =>
    by_cases none : fixedShares spare xs = []
    · rw [waterFill_final none]; simp [Function.comp_def]
    · rw [waterFill_fixing none, List.map_append, List.map_map]
      refine ((ih _ _).append_left _).trans ?_
      simp only [Function.comp_def]
      rw [← List.map_append]
      exact (List.filter_append_perm _ xs).map _

theorem fitShares_branches (available : Option Nat) (xs : List Share) :
    ((fitShares available xs).targets.map (·.1)).Perm (xs.map (·.branch)) := by
  unfold fitShares
  cases available with
  | none => simp [atFloors, Function.comp_def]
  | some n =>
    dsimp only
    split
    · simp [Function.comp_def]
    · split
      · simp [atFloors, Function.comp_def]
      · exact waterFill_branches ..

/-- The fit of a cycle (R87, R90). -/
def cycleFit (s : State) : FitResult := fitShares ((budgetInForce s).map (availableBudget s)) (sharesOf s)

theorem sharesOf_branches (s : State) : (sharesOf s).map (·.branch) = allotting s := by
  simp [sharesOf, Function.comp_def]

theorem cycleFit_branches (s : State) : ((cycleFit s).targets.map (·.1)).Perm (allotting s) :=
  sharesOf_branches s ▸ fitShares_branches ..

theorem cycleFit_nodup (s : State) : ((cycleFit s).targets.map (·.1)).Nodup :=
  (cycleFit_branches s).nodup_iff.mpr (allotting_nodup s)

theorem exists_target {s : State} {b : BranchId} : (∃ n, (b, n) ∈ (cycleFit s).targets) ↔ b ∈ allotting s := by
  rw [← (cycleFit_branches s).mem_iff]
  simp

/-- R94: a target of a cycle lies between the active floor and the active cap. -/
theorem cycleFit_bounds {s : State} {b : BranchId} {n : Nat} (target : (b, n) ∈ (cycleFit s).targets)
    (floorCap : ∀ c, (s.activePlan c).floor ≤ (s.activePlan c).cap) :
    (s.activePlan b).floor ≤ n ∧ n ≤ (s.activePlan b).cap := by
  have ordered : ∀ x ∈ sharesOf s, x.floor ≤ x.resolved := by
    intro x hx
    obtain ⟨c, -, rfl⟩ := List.mem_map.mp hx
    exact Nat.le_max_left _ _
  obtain ⟨x, hx, rfl, above, below⟩ := fitShares_bounds _ ordered _ target
  obtain ⟨c, -, rfl⟩ := List.mem_map.mp hx
  have resolved := resolvedDemand_eq s c
  have := floorCap c
  dsimp only at *
  omega

/-! ### The hot flags (R89) -/

/-- BRANCH_HOT where a branch is hot, under the measurements and HOT_LIMIT of `s`. -/
def tellHot (s w : State) (b : BranchId) : State :=
  if isHot s b then report .branchHot (.branch b) ((s.measure b).temperature.map fun x => (x : Int)) w else w

theorem judgeHot_eq {s w : State} (b : BranchId) (measured : w.measured = s.measured) (params : w.params = s.params) :
    judgeHot w b = { tellHot s w b with branches := (w.setBranch b { w.branch b with hot := isHot s b }).branches } := by
  have hot : isHot w b = isHot s b := by simp only [isHot, State.measure, measured, params]
  have temperature : (w.measure b).temperature = (s.measure b).temperature := by simp only [State.measure, measured]
  simp only [judgeHot, tellHot, hot, temperature]
  cases e : (s.measure b).temperature with
  | none =>
    have cool : isHot s b = false := by simp [isHot, e]
    simp only [cool, Bool.false_eq_true, if_false]
    rfl
  | some x =>
    cases isHot s b
    · rfl
    · exact report_withBranches ..

theorem tellHot_frame (s w : State) (b : BranchId) :
    tellHot s w b = { w with incidents := (tellHot s w b).incidents, ports := (tellHot s w b).ports } := by
  unfold tellHot
  split
  · exact report_frame ..
  · rfl

/-- The reports of a fold of `tellHot` are all it does. -/
theorem foldl_tellHot_frame (s w : State) (bs : List BranchId) : bs.foldl (tellHot s) w =
    { w with incidents := (bs.foldl (tellHot s) w).incidents, ports := (bs.foldl (tellHot s) w).ports } := by
  induction bs generalizing w with
  | nil => rfl
  | cons b bs ih => rw [List.foldl_cons, ih, tellHot_frame]

/-- What the hot judgement of the allotting branches does besides the flags in their records: BRANCH_HOT for each. -/
theorem foldl_judgeHot {s : State} (bs : List BranchId) : ∀ w : State, w.measured = s.measured → w.params = s.params →
    bs.foldl judgeHot w = { bs.foldl (tellHot s) w with branches := (bs.foldl judgeHot w).branches } := by
  have commute : ∀ (bs : List BranchId) (w : State) (v : Vector Branch 48),
      bs.foldl (tellHot s) { w with branches := v } = { bs.foldl (tellHot s) w with branches := v } := by
    intro bs
    induction bs with
    | nil => intro w v; rfl
    | cons b bs ih =>
      intro w v
      have one : tellHot s { w with branches := v } b = { tellHot s w b with branches := v } := by
        unfold tellHot
        split
        · exact report_withBranches ..
        · rfl
      rw [List.foldl_cons, List.foldl_cons, one, ih]
  induction bs with
  | nil => intro w _ _; rfl
  | cons b bs ih =>
    intro w measured params
    have one := judgeHot_eq b measured params
    have frame := tellHot_frame s w b
    rw [List.foldl_cons, List.foldl_cons, ih _ (by rw [one, frame]; exact measured) (by rw [one, frame]; exact params)]
    have told : bs.foldl (tellHot s) (judgeHot w b) =
        { bs.foldl (tellHot s) (tellHot s w b) with branches := (judgeHot w b).branches } := by
      rw [one]; exact commute ..
    rw [told]

theorem foldl_judgeHot_branch {s : State} (bs : List BranchId) (c : BranchId) : ∀ w : State, w.measured = s.measured →
    w.params = s.params → (bs.foldl judgeHot w).branch c =
      if c ∈ bs then { w.branch c with hot := isHot s c } else w.branch c := by
  induction bs with
  | nil => intro w _ _; rfl
  | cons b bs ih =>
    intro w measured params
    have one := judgeHot_eq b measured params
    have frame := tellHot_frame s w b
    have here : (judgeHot w b).branch c = if c = b then { w.branch c with hot := isHot s c } else w.branch c := by
      rw [one]
      refine (State.setBranch_branch ..).trans ?_
      split
      · rename_i same; rw [same]
      · rfl
    rw [List.foldl_cons, ih _ (by rw [one, frame]; exact measured) (by rw [one, frame]; exact params), here]
    by_cases same : c = b <;> by_cases later : c ∈ bs <;> simp [same, later]

/-! ### The targets and the positions -/

theorem foldl_writeTarget_eq (ts : List (BranchId × Nat)) (w : State) :
    ts.foldl writeTarget w = { w with branches := (ts.foldl writeTarget w).branches } := by
  induction ts generalizing w with
  | nil => rfl
  | cons x ts ih => rw [List.foldl_cons, ih]; rfl

theorem foldl_writeTarget_other {ts : List (BranchId × Nat)} {c : BranchId} : ∀ {w : State}, c ∉ ts.map (·.1) →
    (ts.foldl writeTarget w).branch c = w.branch c := by
  induction ts with
  | nil => intro w _; rfl
  | cons x ts ih =>
    intro w absent
    rw [List.map_cons, List.mem_cons, not_or] at absent
    rw [List.foldl_cons, ih absent.2]
    exact (State.setBranch_branch ..).trans (if_neg absent.1)

theorem foldl_writeTarget_branch {ts : List (BranchId × Nat)} {c : BranchId} {n : Nat} : ∀ {w : State},
    (ts.map (·.1)).Nodup → (c, n) ∈ ts → (ts.foldl writeTarget w).branch c = { w.branch c with target := some n } := by
  induction ts with
  | nil => intro w _ h; simp at h
  | cons x ts ih =>
    intro w nodup member
    rw [List.map_cons, List.nodup_cons] at nodup
    rw [List.foldl_cons]
    rcases List.mem_cons.mp member with rfl | later
    · rw [foldl_writeTarget_other nodup.1]
      exact (State.setBranch_branch ..).trans (if_pos rfl)
    · have other : c ≠ x.1 := fun same => nodup.1 (same ▸ List.mem_map_of_mem later)
      have here : (writeTarget w x).branch c = w.branch c := (State.setBranch_branch ..).trans (if_neg other)
      rw [ih nodup.2 later, here]

/-- A record whose position has moved toward its target (R96, R97). -/
def Branch.moved (p : Params) (flow gain : Nat) (x : Branch) : Branch :=
  match x.target with
  | some n => { x with supply := saturate 0 1000 (x.supply + stepApplied p ((n : Int) - flow) gain) }
  | none => x

theorem updatePosition_eq (s : State) (b : BranchId) : updatePosition s b =
    if (s.segment (zoneOf b)).link = .online then
      s.setBranch b ((s.branch b).moved s.params (s.measure b).supplyFlow (s.entry b).gain) else s := by
  unfold updatePosition movePosition Branch.moved
  split
  · cases e : (s.branch b).target with
    | none => simp [State.setBranch, State.branch, put, Vector.get_eq_getElem]
    | some n => simp only [e]
  · rfl

theorem foldl_updatePosition_eq (bs : List BranchId) (w : State) :
    bs.foldl updatePosition w = { w with branches := (bs.foldl updatePosition w).branches } := by
  have one : ∀ (v : State) (b : BranchId), updatePosition v b = { v with branches := (updatePosition v b).branches } := by
    intro v b
    rw [updatePosition_eq]
    split <;> rfl
  induction bs generalizing w with
  | nil => rfl
  | cons b bs ih => rw [List.foldl_cons, ih, one]

theorem foldl_updatePosition_branch {bs : List BranchId} {c : BranchId} : ∀ {w : State}, bs.Nodup →
    (bs.foldl updatePosition w).branch c =
      if c ∈ bs ∧ (w.segment (zoneOf c)).link = .online then
        (w.branch c).moved w.params (w.measure c).supplyFlow (w.entry c).gain
      else w.branch c := by
  induction bs with
  | nil => intro w _; simp
  | cons b bs ih =>
    intro w nodup
    rw [List.nodup_cons] at nodup
    have one := foldl_updatePosition_eq [b] w
    have here : (updatePosition w b).branch c =
        if c = b ∧ (w.segment (zoneOf c)).link = .online then
          (w.branch c).moved w.params (w.measure c).supplyFlow (w.entry c).gain
        else w.branch c := by
      rw [updatePosition_eq]
      by_cases same : c = b
      · subst same; split <;> simp [*]
      · split <;> simp [same]
    simp only [List.foldl_cons, List.foldl_nil] at one
    rw [List.foldl_cons, ih nodup.2, here, one]
    change (if c ∈ bs ∧ (w.segment (zoneOf c)).link = .online then
      Branch.moved w.params (w.measure c).supplyFlow (w.entry c).gain _ else _) = _
    by_cases same : c = b
    · subst same; simp [nodup.1]
    · simp [same]

/-! ### The computation of a cycle -/

/-- The incidents of a computing cycle: BRANCH_HOT for each hot branch, then BUDGET_BREACH for a breach (R89, R91). -/
def toldByCycle (s : State) : State :=
  reportBreach ((budgetInForce s).map (availableBudget s)) (sharesOf s) (cycleFit s) ((allotting s).foldl (tellHot s) s)

/-- The records after the hot flags and the targets, before the positions. -/
def writtenByCycle (s : State) : State := (cycleFit s).targets.foldl writeTarget ((allotting s).foldl judgeHot s)

/-- The state on which the positions move. -/
def reportedByCycle (s : State) : State :=
  reportBreach ((budgetInForce s).map (availableBudget s)) (sharesOf s) (cycleFit s) (writtenByCycle s)

theorem compute_stages (s : State) : compute s =
    { stage4 (allotting s) (reportedByCycle s) with summary := summarize s (sharesOf s) (cycleFit s) } := rfl

theorem reportBreach_withBranches (available : Option Nat) (xs : List Share) (r : FitResult) (s : State)
    (bs : Vector Branch 48) :
    reportBreach available xs r { s with branches := bs } = { reportBreach available xs r s with branches := bs } := by
  unfold reportBreach
  split
  · exact report_withBranches ..
  · rfl

theorem toldByCycle_frame (s : State) :
    toldByCycle s = { s with incidents := (toldByCycle s).incidents, ports := (toldByCycle s).ports } := by
  unfold toldByCycle reportBreach
  rw [foldl_tellHot_frame]
  split
  · rw [report_frame]
  · rfl

theorem stage4_eq (bs : List BranchId) (s : State) : stage4 bs s = { s with branches := (stage4 bs s).branches } := by
  unfold stage4
  split
  · exact foldl_updatePosition_eq bs s
  · rfl

/-- Besides the records of the branches and the summary, a computing cycle leaves its incidents. -/
theorem compute_eq (s : State) : compute s =
    { toldByCycle s with branches := (compute s).branches, summary := summarize s (sharesOf s) (cycleFit s) } := by
  have written : writtenByCycle s =
      { (allotting s).foldl (tellHot s) s with branches := (writtenByCycle s).branches } := by
    unfold writtenByCycle
    rw [foldl_writeTarget_eq, foldl_judgeHot (s := s) (allotting s) s rfl rfl]
  have told : reportedByCycle s = { toldByCycle s with branches := (writtenByCycle s).branches } := by
    unfold reportedByCycle
    rw [written]; exact reportBreach_withBranches ..
  have staged : stage4 (allotting s) (reportedByCycle s) =
      { toldByCycle s with branches := (stage4 (allotting s) (reportedByCycle s)).branches } := by
    rw [told]; exact stage4_eq ..
  exact congrArg (fun w : State => { w with summary := summarize s (sharesOf s) (cycleFit s) }) staged

/-- The record of a branch after a computing cycle. -/
theorem compute_branch (s : State) (b : BranchId) : (compute s).branch b =
    if s.mode = .run ∧ (s.branch b).state.isAllotting = true ∧ (s.segment (zoneOf b)).link = .online then
      ((writtenByCycle s).branch b).moved s.params (s.measure b).supplyFlow (s.entry b).gain
    else (writtenByCycle s).branch b := by
  have told : reportedByCycle s = { writtenByCycle s with
      incidents := (reportedByCycle s).incidents, ports := (reportedByCycle s).ports } := by
    unfold reportedByCycle reportBreach
    split
    · exact report_frame ..
    · rfl
  have frame : writtenByCycle s = { s with
      branches := (writtenByCycle s).branches
      incidents := (writtenByCycle s).incidents
      ports := (writtenByCycle s).ports } := by
    unfold writtenByCycle
    rw [foldl_writeTarget_eq, foldl_judgeHot (s := s) (allotting s) s rfl rfl, foldl_tellHot_frame]
  change (stage4 (allotting s) (reportedByCycle s)).branch b = _
  rw [told]
  unfold stage4
  rw [frame]
  by_cases run : s.mode = .run
  case neg => simp only [run, if_false, false_and]; rfl
  case pos =>
    simp only [run, if_true, true_and]
    rw [foldl_updatePosition_branch (allotting_nodup s)]
    simp only [mem_allotting]
    rfl

/-- Before the positions move, an allotting branch has its hot flag and its target, and no other record has changed. -/
theorem writtenByCycle_branch (s : State) (b : BranchId) :
    ((s.branch b).state.isAllotting = false → (writtenByCycle s).branch b = s.branch b) ∧
    ∀ n, (b, n) ∈ (cycleFit s).targets →
      (writtenByCycle s).branch b = { s.branch b with hot := isHot s b, target := some n } := by
  have judged := foldl_judgeHot_branch (s := s) (allotting s) b s rfl rfl
  simp only [mem_allotting] at judged
  unfold writtenByCycle
  refine ⟨fun other => ?_, fun n target => ?_⟩
  · have absent : b ∉ (cycleFit s).targets.map (·.1) := by
      rw [(cycleFit_branches s).mem_iff, mem_allotting, other]; decide
    rw [foldl_writeTarget_other absent, judged, if_neg (by simp [other])]
  · have allots : (s.branch b).state.isAllotting = true := mem_allotting.mp (exists_target.mp ⟨n, target⟩)
    rw [foldl_writeTarget_branch (cycleFit_nodup s) target, judged, if_pos allots]

theorem compute_branch_other {s : State} {b : BranchId} (other : (s.branch b).state.isAllotting = false) :
    (compute s).branch b = s.branch b := by
  rw [compute_branch, if_neg (by simp [other]), (writtenByCycle_branch s b).1 other]

/-- R89, R94 to R97: the record of an allotting branch after a computing cycle. -/
theorem compute_branch_allotting {s : State} {b : BranchId} {n : Nat} (target : (b, n) ∈ (cycleFit s).targets) :
    (compute s).branch b = { s.branch b with
      hot := isHot s b
      target := some n
      supply :=
        if s.mode = .run ∧ (s.segment (zoneOf b)).link = .online then
          saturate 0 1000 ((s.branch b).supply + stepApplied s.params ((n : Int) - (s.measure b).supplyFlow) (s.entry b).gain)
        else (s.branch b).supply } := by
  have allots : (s.branch b).state.isAllotting = true := mem_allotting.mp (exists_target.mp ⟨n, target⟩)
  rw [compute_branch, (writtenByCycle_branch s b).2 n target]
  simp only [allots, true_and, Branch.moved]
  split <;> rfl

/-! ### The cycle -/

theorem swapPlan_eq (s : State) :
    swapPlan s = { s with planActive := if s.freeze = none then s.planPending else s.planActive } := by
  unfold swapPlan
  split <;> rfl

theorem Mode.computes_iff (m : Mode) : m.computes = true ↔ m ≠ .parking ∧ m ≠ .parked := by
  cases m <;> decide

theorem allotmentCycle_idle {s : State} (idle : s.mode = .parking ∨ s.mode = .parked) : allotmentCycle s = swapPlan s := by
  unfold allotmentCycle
  rcases idle with mode | mode <;> rw [mode] <;> rfl

theorem allotmentCycle_computes {s : State} (notParking : s.mode ≠ .parking) (notParked : s.mode ≠ .parked) :
    allotmentCycle s = compute (swapPlan s) :=
  if_pos ((Mode.computes_iff _).mpr ⟨notParking, notParked⟩)

/-- What a computing cycle leaves alone. -/
theorem compute_frame (s : State) : compute s = { s with
    branches := (compute s).branches, summary := (compute s).summary, incidents := (compute s).incidents,
    ports := (compute s).ports } := by
  rw [compute_eq, toldByCycle_frame]

/-- What every cycle leaves alone. -/
theorem allotmentCycle_frame (s : State) : allotmentCycle s = { s with
    planActive := if s.freeze = none then s.planPending else s.planActive
    branches := (allotmentCycle s).branches, summary := (allotmentCycle s).summary,
    incidents := (allotmentCycle s).incidents, ports := (allotmentCycle s).ports } := by
  by_cases computes : s.mode.computes = true
  · rw [show allotmentCycle s = compute (swapPlan s) from if_pos computes]
    conv => lhs; rw [compute_frame]
    rw [swapPlan_eq]
  · rw [show allotmentCycle s = swapPlan s from if_neg computes, swapPlan_eq]

/-- A cycle leaves the record of a branch alone, or writes its target, its hot flag and its position. -/
theorem allotmentCycle_branch (s : State) (b : BranchId) :
    (allotmentCycle s).branch b = s.branch b ∨
      ∃ n, (b, n) ∈ (cycleFit (swapPlan s)).targets ∧ (allotmentCycle s).branch b = (compute (swapPlan s)).branch b := by
  by_cases computes : s.mode.computes = true
  · rw [show allotmentCycle s = compute (swapPlan s) from if_pos computes]
    cases allots : ((swapPlan s).branch b).state.isAllotting
    · left
      rw [compute_branch_other allots, swapPlan_eq]
      rfl
    · obtain ⟨n, target⟩ := exists_target.mpr (mem_allotting.mpr allots)
      exact .inr ⟨n, target, rfl⟩
  · left
    rw [show allotmentCycle s = swapPlan s from if_neg computes, swapPlan_eq]
    rfl

/-- R89, R94 to R97: the record that a cycle writes for an allotting branch of its fit. -/
theorem allotmentCycle_written {s : State} {b : BranchId} {n : Nat} (target : (b, n) ∈ (cycleFit (swapPlan s)).targets) :
    (compute (swapPlan s)).branch b = { s.branch b with
      hot := isHot s b
      target := some n
      supply :=
        if s.mode = .run ∧ (s.segment (zoneOf b)).link = .online then
          saturate 0 1000 ((s.branch b).supply + stepApplied s.params ((n : Int) - (s.measure b).supplyFlow) (s.entry b).gain)
        else (s.branch b).supply } := by
  rw [compute_branch_allotting target, swapPlan_eq]
  rfl

theorem isHot_eq_any (s : State) (b : BranchId) :
    isHot s b = (s.measure b).temperature.any fun x => decide (s.params.hotLimit ≤ x) := by
  unfold isHot
  cases (s.measure b).temperature <;> rfl

/-- Settles O22: the frame of every cycle, the record of each branch, and for a computing cycle its fit, its reports and its
summary. -/
theorem aCycleSwapsThenComputes : Obligations.ACycleSwapsThenComputes := by
  intro s t
  have frame : t = _ := allotmentCycle_frame s
  have active : t.planActive = if s.freeze = none then s.planPending else s.planActive := by rw [frame]
  refine ⟨active, by rw [frame], fun idle => ?idle, ?frame, fun b => ?record, fun notParking notParked => ?computed⟩
  case idle => rw [show t = _ from allotmentCycle_idle idle, swapPlan_eq]
  case frame => rw [active]; exact frame
  case record =>
    have allotted : s.mode ≠ .parking → s.mode ≠ .parked → (s.branch b).state.isAllotting = true →
        (t.branch b).target.isSome = true := by
      intro notParking notParked allots
      have swapped : ((swapPlan s).branch b).state.isAllotting = true := by rw [swapPlan_eq]; exact allots
      obtain ⟨n, target⟩ := exists_target.mpr (mem_allotting.mpr swapped)
      rw [show t = _ from allotmentCycle_computes notParking notParked, allotmentCycle_written target]
      rfl
    rcases allotmentCycle_branch s b with same | ⟨n, target, written⟩
    · rw [show t.branch b = _ from same] at allotted ⊢
      exact ⟨rfl, rfl, fun _ => rfl, fun _ => rfl, allotted⟩
    · have swapped := mem_allotting.mp (exists_target.mp ⟨n, target⟩)
      have allots : (s.branch b).state.isAllotting = true := by rw [swapPlan_eq] at swapped; exact swapped
      rw [show t.branch b = _ from written, allotmentCycle_written target] at allotted ⊢
      refine ⟨rfl, rfl, fun other => by simp [allots] at other, fun still => ?_, allotted⟩
      have : ¬ (s.mode = .run ∧ (s.segment (zoneOf b)).link = .online) := by
        rintro ⟨run, online⟩
        exact still.elim (· run) (· online)
      exact if_neg this
  case computed =>
    have computes : t = compute (swapPlan s) := allotmentCycle_computes notParking notParked
    have swapped : swapPlan s = { s with planActive := t.planActive } := by rw [active]; exact swapPlan_eq s
    have whole := compute_eq (swapPlan s)
    rw [← computes] at whole
    intro v bs hot xs available r told
    have hotEq : hot = isHot s := funext fun b => (isHot_eq_any s b).symm
    have fit : r = cycleFit (swapPlan s) := by rw [swapped]; rfl
    have reported : told = toldByCycle (swapPlan s) := by
      rw [swapped]
      simp only [told, hotEq]
      rfl
    refine ⟨fun lapsed => ?floors, fun b member => ?all, fun b n target => ?written, ?incidents, ?ports, ?summary⟩
    case floors =>
      have unbudgeted : available = none := by simp only [available, lapsed, Option.map_none]
      have floors : r = { fit := .floorMode, targets := atFloors xs, passes := 0 } := congrArg (fitShares · xs) unbudgeted
      rw [floors]
      exact ⟨rfl, rfl⟩
    case all => rw [fit, exists_target, swapped]; exact member
    case written =>
      rw [fit] at target
      have record := allotmentCycle_written target
      rw [← computes] at record
      rw [record, hotEq]
      refine ⟨rfl, rfl, fun run online => ?_⟩
      have present : ((v.setBranch b { s.branch b with target := some n }).branch b).target = some n := by simp
      rw [movePosition_of_target present]
      simp only [State.setBranch_branch, if_true, run, online, and_self]
      rfl
    case incidents => rw [whole, reported]
    case ports => rw [whole, reported]
    case summary =>
      rw [whole, hotEq]
      have count : bs.length = xs.length := (List.length_map ..).symm
      rw [count, ← fit, swapped]
      rfl

end Sys2Proof.Machine

/-! ## What a step can do, block by block -/

namespace Sys2Proof.Machine

open Sys2Proof

/-! ### The moves of a branch record -/

/-- What can happen to a branch record, under the parameters and the entry of its branch, while its plan and its map entry
stay as they are (R40 to R55, R155 to R158). -/
inductive Branch.Move (p : Params) (e : MapEntry) : Branch → Branch → Prop
  | stay (x : Branch) : Move p e x x
  | prime {x : Branch} (h : x.state = .vacant ∨ x.state = .noflow) : Move p e x (x.toPriming e p.primeWindow 1)
  | again {x : Branch} (h : x.state = .backoff) : Move p e x (x.toPriming e p.primeWindow (x.attempts + 1))
  | backoff {x : Branch} (timer : Timer) (h : x.state = .priming) (few : x.attempts < p.retryLimit) :
    Move p e x (x.atRest .backoff x.attempts (some timer))
  | noflow {x : Branch} (h : x.state = .priming) : Move p e x (x.atRest .noflow x.attempts none)
  | proof {x : Branch} (n : Nat) (h : x.state = .priming) (few : n ≤ 3) : Move p e x { x with proof := n }
  | flow {x : Branch} (h : x.state = .priming) : Move p e x (x.toFlowing e e.primePosition)
  | pin {x : Branch} (v : Nat) (h : x.state = .flowing ∨ x.state = .setback) (few : v ≤ 1000) : Move p e x (x.toPinned v)
  | repin {x : Branch} (v : Nat) (h : x.state = .pinned) (few : v ≤ 1000) :
    Move p e x { x with pin := some v, supply := v }
  | unpin {x : Branch} (h : x.state = .pinned) : Move p e x (x.toFlowing e (x.pin.getD x.supply))
  | refresh {x : Branch} (h : x.state = .flowing) (policy : e.ttlPolicy = .refresh) :
    Move p e x { x with ttl := some (Timer.start e.ttlTime) }
  | back {x : Branch} (h : x.state = .setback) : Move p e x (x.backToFlowing e)
  | expire {x : Branch} (h : x.state = .flowing) : Move p e x x.toSetback
  | closeReturn {x : Branch} (h : x.state = .isolating) : Move p e x { x with ret := .closed, subPhase := some .returnClosing }
  | isolated {x : Branch} (h : x.state = .isolating) : Move p e x x.toIsolated
  | fault {x : Branch} (h : x.state = .isolating) : Move p e x x.toIsolateFault
  | order {x : Branch} (r : IsolationReason) : Move p e x (Branch.toIsolating r p.isolateWindow)
  | elapse (x : Branch) (ms : Nat) (ttlRuns : Bool) : Move p e x (x.elapse ms ttlRuns)
  | restart (x : Branch) : Move p e x (x.restart p e)

/-- The start states of the load (R61). -/
inductive Branch.Start (p : Params) (e : MapEntry) : Branch → Prop
  | stored : Start p e (Branch.toIsolating .stored p.isolateWindow)
  | blank (h : e.slotTag = none) : Start p e Branch.initial
  | primes (h : e.slotTag ≠ none) : Start p e (Branch.initial.toPriming e p.primeWindow 1)
  | waits (h : e.slotTag ≠ none) : Start p e (Branch.initial.atRest .vacant 0 none)

/-- A branch that comes to rest with its plan: released (R56, R58) or restored (R60). -/
inductive Branch.Rest (e : MapEntry) : Branch → Branch → Prop
  | release {x : Branch} (h : x.state.isAdmitted = true) : Rest e x (x.atRest .vacant 0 none)
  | restore {x : Branch} (h : x.state.isRestorable = true) :
    Rest e x { x.atRest e.restState 0 none with isolationMark := false }

/-- What becomes of a branch whose map entry is written as `e` or cleared to it (R10, R12). -/
inductive Branch.Mapped (e : MapEntry) : Branch → Branch → Prop
  | write {x : Branch} (h : x.state = .unmapped) (tag : e.slotTag ≠ none) : Mapped e x (x.atRest .vacant 0 none)
  | rewrite {x : Branch} (h : x.state = .vacant) (tag : e.slotTag ≠ none) : Mapped e x x
  | clear {x : Branch} (h : x.state = .vacant) (tag : e.slotTag = none) : Mapped e x (x.atRest .unmapped 0 none)

theorem BranchState.isAdmitted_iff (st : BranchState) :
    st.isAdmitted = true ↔ st ∈ [BranchState.priming, .backoff, .noflow, .flowing, .setback, .pinned] := by
  cases st <;> decide

theorem BranchState.isRestorable_iff (st : BranchState) : st.isRestorable = true ↔ st = .isolated ∨ st = .isolateFault := by
  cases st <;> decide

section Fields

variable (e : MapEntry) (p : Params) (n ms : Nat) (r : IsolationReason) (st : BranchState) (timer : Option Timer) (runs : Bool)
  (x : Branch)

@[simp] theorem Branch.atRest_state : (x.atRest st n timer).state = st := rfl
@[simp] theorem Branch.toPriming_state (window : Nat) : (x.toPriming e window n).state = .priming := rfl
@[simp] theorem Branch.toFlowing_state : (x.toFlowing e n).state = .flowing := rfl
@[simp] theorem Branch.backToFlowing_state : (x.backToFlowing e).state = .flowing := rfl
@[simp] theorem Branch.toSetback_state : x.toSetback.state = .setback := rfl
@[simp] theorem Branch.toPinned_state : (x.toPinned n).state = .pinned := rfl
@[simp] theorem Branch.toIsolating_state : (Branch.toIsolating r n).state = .isolating := rfl
@[simp] theorem Branch.toIsolated_state : x.toIsolated.state = .isolated := rfl
@[simp] theorem Branch.toIsolateFault_state : x.toIsolateFault.state = .isolateFault := rfl
@[simp] theorem Branch.elapse_state : (x.elapse ms runs).state = x.state := rfl
@[simp] theorem Branch.restart_state : (x.restart p e).state = x.state := by unfold Branch.restart; split <;> simp_all

@[simp] theorem Branch.atRest_isolationMark : (x.atRest st n timer).isolationMark = x.isolationMark := rfl
@[simp] theorem Branch.toPriming_isolationMark (window : Nat) :
    (x.toPriming e window n).isolationMark = x.isolationMark := rfl
@[simp] theorem Branch.toFlowing_isolationMark : (x.toFlowing e n).isolationMark = x.isolationMark := rfl
@[simp] theorem Branch.backToFlowing_isolationMark : (x.backToFlowing e).isolationMark = x.isolationMark := rfl
@[simp] theorem Branch.toSetback_isolationMark : x.toSetback.isolationMark = x.isolationMark := rfl
@[simp] theorem Branch.toPinned_isolationMark : (x.toPinned n).isolationMark = x.isolationMark := rfl
@[simp] theorem Branch.toIsolating_isolationMark : (Branch.toIsolating r n).isolationMark = true := rfl
@[simp] theorem Branch.toIsolated_isolationMark : x.toIsolated.isolationMark = x.isolationMark := rfl
@[simp] theorem Branch.toIsolateFault_isolationMark : x.toIsolateFault.isolationMark = x.isolationMark := rfl
@[simp] theorem Branch.elapse_isolationMark : (x.elapse ms runs).isolationMark = x.isolationMark := rfl
@[simp] theorem Branch.restart_isolationMark : (x.restart p e).isolationMark = x.isolationMark := by
  unfold Branch.restart; split <;> rfl
@[simp] theorem Branch.initial_isolationMark : Branch.initial.isolationMark = false := rfl

/-- A TTL is started for REFRESH and FIXED alone (R50). -/
@[simp] theorem MapEntry.startTtl_isSome : e.startTtl.isSome = decide (e.ttlPolicy ≠ .none) := by
  unfold MapEntry.startTtl; cases e.ttlPolicy <;> rfl

/-- Time moves the timers of a record and never starts or ends one. -/
theorem Branch.elapse_agrees : (x.elapse ms runs).agrees e ↔ x.agrees e := by
  have own : (x.elapse ms runs).timer.isSome = x.timer.isSome := by simp [Branch.elapse]
  have ttl : (x.elapse ms runs).ttl.isSome = x.ttl.isSome := by cases runs <;> simp [Branch.elapse]
  unfold Branch.agrees
  rw [own, ttl]
  exact Iff.rfl

end Fields

theorem BranchState.not_isolation_of_isAdmitted {st : BranchState} (h : st.isAdmitted = true) :
    st ≠ .unmapped ∧ st.isIsolation = false := by
  revert h; cases st <;> decide

theorem BranchState.isAllotting_iff (st : BranchState) : st.isAllotting = true ↔ st = .flowing ∨ st = .setback := by
  cases st <;> decide

theorem MapEntry.restState_cases (e : MapEntry) :
    (e.slotTag = none ∧ e.restState = .unmapped) ∨ (e.slotTag ≠ none ∧ e.restState = .vacant) := by
  unfold MapEntry.restState
  split
  · exact .inl ⟨‹_›, rfl⟩
  · exact .inr ⟨‹_›, rfl⟩

theorem saturate_le {lo hi : Nat} (range : lo ≤ hi) (z : Int) : saturate lo hi z ≤ hi := by
  have := saturate_eq_max_min range z
  omega

theorem le_saturate {lo hi : Nat} (range : lo ≤ hi) (z : Int) : lo ≤ saturate lo hi z := by
  have := saturate_eq_max_min range z
  omega

/-! ### The changes of the state -/

/-- One change of a block of the part, with what the operations give of it. `own` holds of the ports whose receive state a
change may write; `ages` says whether leases may age and reach their marks. -/
inductive Change (own : Port → Prop) (ages : Prop) : State → State → Prop
  /-- A change of a block that no invariant speaks of. -/
  | frame (s : State) {clock : Nat} {resetLow restartDue saveAborted : Bool} {scanner : Scanner} {freeze : Option Freeze}
      {timer : CycleTimer} {summary : CycleSummary} {handover : Option Handover} {imageTorn : Bool} {draws : Nat} :
      Change own ages s { s with
        clock := clock, resetLow := resetLow, restartDue := restartDue, saveAborted := saveAborted, scanner := scanner,
        freeze := freeze, timer := timer, summary := summary, handover := handover, imageTorn := imageTorn,
        draws := draws }
  /-- Reports taken and flags set. -/
  | told (s : State) (l : IncidentList) (v : Vector LinkPort 4)
      (incidents : IncidentsFit s → IncidentsFit { s with incidents := l })
      (flags : ∀ p, (s.port p).onlyFlagged (v.get p.idx)) : Change own ages s { s with incidents := l, ports := v }
  | port (s : State) {p : Port} (h : own p) (x : LinkPort) : Change own ages s (s.setPort p x)
  | ports (s : State) (h : ∀ p, own p) (v : Vector LinkPort 4) : Change own ages s { s with ports := v }
  | branches (s : State) (v : Vector Branch 48) (moves : ∀ b, Branch.Move s.params (s.entry b) (s.branch b) (v.get b))
      (admits : s.mode = .run ∨ ∀ b, (v.get b).state.isAdmitted = true → (s.branch b).state.isAdmitted = true) :
      Change own ages s { s with branches := v }
  | rest (s : State) {b : BranchId} {y : Branch} (h : Branch.Rest (s.entry b) (s.branch b) y) :
      Change own ages s ((s.planToDefaults b).setBranch b y)
  | entry (s : State) {b : BranchId} {e : MapEntry} {y : Branch} (fits : e.fits)
      (free : e.slotTag ≠ none → ∀ c, c ≠ b → (s.entry c).slotTag ≠ e.slotTag) (h : Branch.Mapped e (s.branch b) y) :
      Change own ages s ((s.setEntry b e).setBranch b y)
  | load (s : State) (m : Vector MapEntry 48) (v : Vector Branch 48) (z : Vector Zone 16) (p : Params)
      (loading : s.loading = true) (tags : TagsDistinct { s with map := m }) (entries : EntriesFit { s with map := m })
      (params : p.inRange) (zones : ∀ i, (s.zone i).fits → (z.get i).fits) (starts : ∀ b, Branch.Start p (m.get b) (v.get b)) :
      Change own ages s { s with map := m, branches := v, zones := z, params := p, loading := false }
  | plan (s : State) {b : BranchId} {x : PlanEntry} (loaded : s.loading = false) (takes : takesNoPlan s b = false)
      (floor : (s.pendingPlan b).floor ≤ (s.pendingPlan b).cap → x.floor ≤ x.cap)
      (range : (s.pendingPlan b).inRange → x.inRange) : Change own ages s (s.setPendingPlan b x)
  | cycle (s : State) : Change own ages s { s with
        planActive := (allotmentCycle s).planActive, branches := (allotmentCycle s).branches }
  | field (s : State) (m : Vector Measurement 48) (g : Vector SegmentRecord 16) (h : HeadRecord)
      (range : MeasurementsInRange s → MeasurementsInRange { s with measured := m, segments := g, head := h })
      (links : LinksFit s → LinksFit { s with measured := m, segments := g, head := h }) :
      Change own ages s { s with measured := m, segments := g, head := h }
  | lease (s : State) (f : Feed) (x : Option Lease) (ordered : ∀ l ∈ x, l.ordered) : Change own ages s (s.setLease f x)
  | leases (s : State) (h : ages) (v : Vector (Option Lease) 2) : Change own ages s { s with leases := v }
  | feeds (s : State) (v : Vector FeedRecord 2) (f : Feed) (w : Option Switch) (u : Option Timer) (o : Bool)
      (inlets : InletsAgree s →
        InletsAgree { s with feeds := v, activeFeed := f, switch := w, startup := u, bothOpen := o })
      (agree : FeedsAgree s → FeedsAgree { s with feeds := v }) :
      Change own ages s { s with feeds := v, activeFeed := f, switch := w, startup := u, bothOpen := o }
  | lock (s : State) : Change own ages s { s with feedLock := true }
  | drips (s : State) (v : Vector Accumulator 48) (bounded : DripsBounded s → DripsBounded { s with drips := v }) :
      Change own ages s { s with drips := v }
  | params (s : State) (p : Params) (range : s.params.inRange → p.inRange)
      (bounded : DripsBounded s → DripsBounded { s with params := p }) : Change own ages s { s with params := p }
  | zones (s : State) (v : Vector Zone 16) (fits : ∀ z, (s.zone z).fits → (v.get z).fits) :
      Change own ages s { s with zones := v }
  | modes (s : State) (m : Mode) (h : Option FaultHold) (k : Option Park)
      (agree : ModesAgree s → ModesAgree { s with mode := m, faultHold := h, park := k })
      (parked : ParkedAtRest s → ParkedAtRest { s with mode := m }) :
      Change own ages s { s with mode := m, faultHold := h, park := k }
  | store (s : State) (x : Store) (fits : StoreFits s → StoreFits { s with store := x }) :
      Change own ages s { s with store := x }
  | eeprom (s : State) (m : List Host.Cell) (wf : StoreFits s → memoryWf s.eeprom = true → memoryWf m = true)
      (areas : StoreFits s → ∀ a, ¬ inAreas a → readByte m a = readByte s.eeprom a) :
      Change own ages s { s with eeprom := m }

/-- Any number of changes. -/
abbrev Changes (own : Port → Prop) (ages : Prop) : State → State → Prop := Relation.ReflTransGen (Change own ages)

/-- What every change keeps, any number of them keeps. -/
theorem Changes.keeps {own : Port → Prop} {ages : Prop} {P : State → Prop} {s t : State} (h : Changes own ages s t)
    (each : ∀ {s t}, Change own ages s t → P s → P t) (start : P s) : P t := by
  induction h with
  | refl => exact start
  | tail _ last ih => exact each last ih

/-! ### What the changes keep: the map and the branches -/

section Keeps

variable {own : Port → Prop} {ages : Prop} {s t : State}

theorem Change.keeps_tagsDistinct (h : Change own ages s t) (k : TagsDistinct s) : TagsDistinct t := by
  cases h with
  | @entry b e y fits free mapped =>
    intro c d apart valid
    simp only [State.setBranch_entry, State.setEntry_entry] at valid ⊢
    by_cases hc : c = b <;> by_cases hd : d = b
    · exact absurd (hc.trans hd.symm) apart
    · simp only [hc, hd, if_true, if_false] at valid ⊢
      exact (free valid d hd).symm
    · simp only [hc, hd, if_true, if_false] at valid ⊢
      intro same
      exact free (same ▸ valid) c hc same
    · simp only [hc, hd, if_false] at valid ⊢
      exact k c d apart valid
  | load _ _ _ _ _ tags => exact tags
  | _ => exact k

theorem Change.keeps_entriesFit (h : Change own ages s t) (k : EntriesFit s) : EntriesFit t := by
  cases h with
  | @entry b e y fits free mapped =>
    intro c
    simp only [State.setBranch_entry, State.setEntry_entry]
    split
    · exact fits
    · exact k c
  | load _ _ _ _ _ _ entries => exact entries
  | _ => exact k

/-- An invariant of each branch's record and entry is kept by a change where the moves of a record keep it. -/
theorem Change.keeps_records {Q : MapEntry → Branch → Prop} (h : Change own ages s t)
    (move : ∀ {e x y}, Branch.Move s.params e x y → Q e x → Q e y)
    (rest : ∀ {e x y}, Branch.Rest e x y → Q e x → Q e y)
    (mapped : ∀ {e e' x y}, e'.fits → Branch.Mapped e' x y → Q e x → Q e' y)
    (start : ∀ {p e y}, e.fits → Branch.Start p e y → Q e y)
    (cycle : ∀ {e x} (n : Nat) (hot : Bool) (v : Nat), x.state.isAllotting = true → (v = x.supply ∨ v ≤ 1000) → Q e x →
      Q e { x with target := some n, hot := hot, supply := v })
    (k : ∀ b, Q (s.entry b) (s.branch b)) : ∀ b, Q (t.entry b) (t.branch b) := by
  cases h with
  | branches v moves => exact fun b => move (moves b) (k b)
  | @rest b y h =>
    intro c
    simp only [State.setBranch_branch, State.setBranch_entry, State.planToDefaults_branch, State.planToDefaults_entry]
    split
    · rename_i same; subst same; exact rest h (k c)
    · exact k c
  | @entry b e y fits _ h =>
    intro c
    simp only [State.setBranch_branch, State.setBranch_entry, State.setEntry_branch, State.setEntry_entry]
    split
    · rename_i same; subst same; exact mapped fits h (k c)
    · exact k c
  | load _ _ _ _ _ _ entries _ _ starts => exact fun b => start (entries b) (starts b)
  | cycle =>
    intro b
    change Q (s.entry b) ((allotmentCycle s).branch b)
    rcases allotmentCycle_branch s b with same | ⟨n, target, written⟩
    · rw [same]; exact k b
    · have allots := mem_allotting.mp (exists_target.mp ⟨n, target⟩)
      rw [swapPlan_eq] at allots
      rw [written, allotmentCycle_written target]
      refine cycle n _ _ allots ?_ (k b)
      split
      · exact .inr (saturate_le (by decide) _)
      · exact .inl rfl
  | _ => exact k

theorem Change.keeps_statesMatchEntries (h : Change own ages s t) (k : StatesMatchEntries s) : StatesMatchEntries t := by
  refine h.keeps_records (Q := fun e x => (x.state = .unmapped → e.slotTag = none) ∧
    (x.state ≠ .unmapped → x.state.isIsolation = false → e.slotTag ≠ none)) ?move ?rest ?mapped ?start ?cycle k
  case move =>
    intro e x y move old
    cases move
    case prime rest | pin rest _ => rcases rest with h | h <;> simp_all [BranchState.isIsolation]
    all_goals simp_all [BranchState.isIsolation]
  case rest =>
    intro e x y rest old
    cases rest with
    | release admitted =>
      obtain ⟨mapped, free⟩ := BranchState.not_isolation_of_isAdmitted admitted
      simp_all
    | restore _ => rcases e.restState_cases with ⟨tag, st⟩ | ⟨tag, st⟩ <;> simp [tag, st]
  case mapped =>
    intro e e' x y _ mapped old
    cases mapped <;> simp_all
  case start =>
    intro p e y _ start
    cases start <;> simp_all [Branch.initial, BranchState.isIsolation]
  case cycle => exact fun _ _ _ _ _ old => old

theorem Change.keeps_recordsAgree (h : Change own ages s t) (k : RecordsAgree s) : RecordsAgree t := by
  refine h.keeps_records (Q := fun e x => x.agrees e) ?move ?rest ?mapped ?start ?cycle k
  case move =>
    intro e x y move old
    cases move
    case elapse => exact (Branch.elapse_agrees ..).mpr old
    case restart => unfold Branch.restart; split <;> simp_all [Branch.agrees]
    case pin flowing _ =>
      rcases flowing with h | h <;> simp_all [Branch.agrees, Branch.toPinned, BranchState.isIsolation]
    all_goals simp_all [Branch.agrees, Branch.toPriming, Branch.atRest, Branch.toFlowing, Branch.backToFlowing,
      Branch.toSetback, Branch.toIsolated, Branch.toIsolateFault, Branch.toIsolating, BranchState.isIsolation]
  case rest =>
    intro e x y rest old
    cases rest with
    | release _ => simp [Branch.agrees, Branch.atRest, BranchState.isIsolation]
    | restore _ =>
      rcases e.restState_cases with ⟨_, st⟩ | ⟨_, st⟩ <;> simp [st, Branch.agrees, Branch.atRest, BranchState.isIsolation]
  case mapped =>
    intro e e' x y _ mapped old
    cases mapped <;> simp_all [Branch.agrees, Branch.atRest, BranchState.isIsolation]
  case start =>
    intro p e y _ start
    cases start <;> simp [Branch.agrees, Branch.initial, Branch.toIsolating, Branch.atRest, Branch.toPriming,
      BranchState.isIsolation]
  case cycle =>
    intro e x n hot v allots _ old
    rw [BranchState.isAllotting_iff] at allots
    simp_all [Branch.agrees]

theorem Change.keeps_attemptsFit (h : Change own ages s t) (range : ParamsInRange s) (k : AttemptsFit s) : AttemptsFit t := by
  have limit : s.params.retryLimit ≤ 8 := by
    obtain ⟨_, _, _, ⟨_, limit⟩, _⟩ := range
    exact limit
  refine h.keeps_records (Q := fun _ x => x.attemptsFit) ?move ?rest ?mapped ?start ?cycle k
  case move =>
    intro e x y move old
    cases move
    case restart => unfold Branch.restart; split <;> simp_all [Branch.attemptsFit]
    all_goals
      simp_all [Branch.attemptsFit, Branch.toPriming, Branch.atRest, Branch.toFlowing, Branch.toPinned, Branch.backToFlowing,
        Branch.toSetback, Branch.toIsolated, Branch.toIsolateFault, Branch.toIsolating, Branch.elapse]
    all_goals omega
  case rest =>
    intro e x y rest old
    cases rest with
    | release _ => simp [Branch.attemptsFit, Branch.atRest]
    | restore _ => rcases e.restState_cases with ⟨_, st⟩ | ⟨_, st⟩ <;> simp [st, Branch.attemptsFit, Branch.atRest]
  case mapped =>
    intro e e' x y _ mapped old
    cases mapped <;> simp_all [Branch.attemptsFit, Branch.atRest]
  case start =>
    intro p e y _ start
    cases start <;> simp [Branch.attemptsFit, Branch.initial, Branch.toIsolating, Branch.atRest, Branch.toPriming]
  case cycle => exact fun _ _ _ _ _ old => old

theorem Change.keeps_outputsFit (h : Change own ages s t) (k : OutputsFit s) : OutputsFit t := by
  refine h.keeps_records (Q := fun e x => e.primePosition ≤ 1000 ∧ x.outputsFit e) ?move ?rest ?mapped ?start ?cycle k
  case move =>
    intro e x y move old
    cases move
    case pin flowing _ => rcases flowing with h | h <;> simp_all [Branch.outputsFit, Branch.toPinned]
    case restart => unfold Branch.restart; split <;> simp_all [Branch.outputsFit]
    all_goals simp_all [Branch.outputsFit, Branch.toPriming, Branch.atRest, Branch.toFlowing, Branch.backToFlowing,
      Branch.toSetback, Branch.toIsolated, Branch.toIsolateFault, Branch.toIsolating, Branch.elapse]
  case rest =>
    intro e x y rest old
    refine ⟨old.1, ?_⟩
    cases rest with
    | release _ => simp [Branch.outputsFit, Branch.atRest]
    | restore _ => rcases e.restState_cases with ⟨_, st⟩ | ⟨_, st⟩ <;> simp [st, Branch.outputsFit, Branch.atRest]
  case mapped =>
    intro e e' x y fits mapped old
    obtain ⟨_, _, ⟨_, prime⟩, _⟩ := fits
    refine ⟨prime, ?_⟩
    cases mapped <;> simp_all [Branch.outputsFit, Branch.atRest]
  case start =>
    intro p e y fits start
    obtain ⟨_, _, ⟨_, prime⟩, _⟩ := fits
    refine ⟨prime, ?_⟩
    cases start <;> simp [Branch.outputsFit, Branch.initial, Branch.toIsolating, Branch.atRest, Branch.toPriming]
  case cycle =>
    intro e x n hot v allots supply old
    rcases (BranchState.isAllotting_iff _).mp allots with st | st <;> rcases supply with rfl | few <;>
      simp_all [Branch.outputsFit]

theorem Change.keeps_marksMatch (h : Change own ages s t) (k : MarksMatch s) : MarksMatch t := by
  refine h.keeps_records (Q := fun _ x => x.isolationMark = x.state.isIsolation) ?move ?rest ?mapped ?start ?cycle k
  case move =>
    intro e x y move old
    cases move
    case prime rest | pin rest _ => rcases rest with h | h <;> simp_all [BranchState.isIsolation]
    all_goals simp_all [BranchState.isIsolation]
  case rest =>
    intro e x y rest old
    cases rest with
    | release admitted =>
      obtain ⟨_, free⟩ := BranchState.not_isolation_of_isAdmitted admitted
      simp_all [BranchState.isIsolation]
    | restore _ => rcases e.restState_cases with ⟨_, st⟩ | ⟨_, st⟩ <;> simp [st, BranchState.isIsolation]
  case mapped =>
    intro e e' x y _ mapped old
    cases mapped <;> simp_all [BranchState.isIsolation]
  case start =>
    intro p e y _ start
    cases start <;> simp [Branch.initial, BranchState.isIsolation]
  case cycle => exact fun _ _ _ _ _ old => old

/-! ### What the changes keep: the plan -/

/-- A plan copy after a cycle is the pending one or the active one from before (R68). -/
theorem allotmentCycle_activePlan (s : State) (b : BranchId) :
    (allotmentCycle s).activePlan b = s.pendingPlan b ∨ (allotmentCycle s).activePlan b = s.activePlan b := by
  have swap : (allotmentCycle s).planActive = if s.freeze = none then s.planPending else s.planActive := by
    rw [allotmentCycle_frame]
  unfold State.activePlan
  rw [swap]
  split
  · exact .inl rfl
  · exact .inr rfl

/-- A property of each copy of each plan entry is kept where the defaults have it and SET_DEMAND and SET_LIMITS keep it. -/
theorem Change.keeps_plans {Q : PlanEntry → Prop} (h : Change own ages s t) (default : Q PlanEntry.default)
    (written : ∀ {x y : PlanEntry}, (x.floor ≤ x.cap → y.floor ≤ y.cap) → (x.inRange → y.inRange) → Q x → Q y)
    (k : ∀ b, Q (s.pendingPlan b) ∧ Q (s.activePlan b)) : ∀ b, Q (t.pendingPlan b) ∧ Q (t.activePlan b) := by
  cases h with
  | @rest b y _ =>
    intro c
    simp only [State.setBranch_pendingPlan, State.setBranch_activePlan, State.planToDefaults_pendingPlan,
      State.planToDefaults_activePlan]
    split
    · exact ⟨default, default⟩
    · exact k c
  | @plan b x _ _ floor range =>
    intro c
    simp only [State.setPendingPlan_pendingPlan, State.setPendingPlan_activePlan]
    split
    · rename_i same; subst same; exact ⟨written floor range (k c).1, (k c).2⟩
    · exact k c
  | cycle =>
    intro b
    refine ⟨(k b).1, ?_⟩
    change Q ((allotmentCycle s).activePlan b)
    rcases allotmentCycle_activePlan s b with same | same <;> rw [same]
    exacts [(k b).1, (k b).2]
  | _ => exact k

theorem Change.keeps_floorsBelowCaps (h : Change own ages s t) (k : FloorsBelowCaps s) : FloorsBelowCaps t :=
  h.keeps_plans (Q := fun x => x.floor ≤ x.cap) (by decide) (fun floor _ old => floor old) k

theorem Change.keeps_plansInRange (h : Change own ages s t) (k : PlansInRange s) : PlansInRange t :=
  h.keeps_plans (Q := PlanEntry.inRange) (by simp [PlanEntry.inRange, PlanEntry.default]) (fun _ range old => range old) k

/-- No move takes a branch into UNMAPPED or VACANT. -/
theorem Branch.Move.atRest {p : Params} {e : MapEntry} {x y : Branch} (h : Branch.Move p e x y)
    (rest : y.state = .unmapped ∨ y.state = .vacant) : x.state = .unmapped ∨ x.state = .vacant := by
  cases h <;> simp_all

theorem Change.keeps_plansAtRest (h : Change own ages s t) (k : PlansAtRest s) : PlansAtRest t := by
  cases h with
  | branches v moves =>
    rintro b (st | st | loading)
    · exact k b (((moves b).atRest (.inl st)).imp_right .inl)
    · exact k b (((moves b).atRest (.inr st)).imp_right .inl)
    · exact k b (.inr (.inr loading))
  | @rest b y rests =>
    intro c st
    simp only [State.setBranch_branch, State.setBranch_pendingPlan, State.setBranch_activePlan,
      State.planToDefaults_pendingPlan, State.planToDefaults_activePlan] at st ⊢
    by_cases same : c = b
    · simp [same]
    · simp only [same, if_false] at st ⊢
      exact k c st
  | @entry b e y _ _ mapped =>
    intro c st
    simp only [State.setBranch_branch] at st
    by_cases same : c = b
    · subst same
      cases mapped with
      | write was => exact k c (.inl was)
      | rewrite was | clear was => exact k c (.inr (.inl was))
    · rw [if_neg same] at st
      exact k c st
  | load _ _ _ _ loading => exact fun b _ => k b (.inr (.inr loading))
  | @plan b x loaded takes _ _ =>
    intro c st
    have other : c ≠ b := by
      rintro rfl
      rcases st with st | st | loading
      · simp [takesNoPlan, show (s.branch c).state = .unmapped from st] at takes
      · simp [takesNoPlan, show (s.branch c).state = .vacant from st] at takes
      · exact absurd (show s.loading = true from loading) (by simp [loaded])
    rw [State.setPendingPlan_pendingPlan, if_neg other]
    exact k c st
  | cycle =>
    intro b st
    have same : ((allotmentCycle s).branch b).state = (s.branch b).state := by
      rcases allotmentCycle_branch s b with same | ⟨n, target, written⟩
      · rw [same]
      · rw [written, allotmentCycle_written target]
    obtain ⟨pending, active⟩ := k b (by rw [← same]; exact st)
    refine ⟨pending, ?_⟩
    change (allotmentCycle s).activePlan b = _
    rcases allotmentCycle_activePlan s b with same | same <;> rw [same]
    exacts [pending, active]
  | _ => exact k

theorem Change.keeps_parkedAtRest (h : Change own ages s t) (k : ParkedAtRest s) : ParkedAtRest t := by
  obtain ⟨rest, run⟩ := k
  cases h with
  | branches v moves admits =>
    refine ⟨fun parked b => ?_, run⟩
    rcases admits with running | admits
    · exact absurd parked (by simp [running])
    · exact Bool.eq_false_iff.mpr fun admitted => by simpa [rest parked b] using admits b admitted
  | @rest b y rests =>
    refine ⟨fun parked c => ?_, run⟩
    rw [State.setBranch_branch]
    split
    · rcases rests with _ | _
      · rfl
      · rcases (s.entry b).restState_cases with ⟨_, st⟩ | ⟨_, st⟩ <;> simp [st, BranchState.isAdmitted]
    · exact rest parked c
  | @entry b e y _ _ mapped =>
    refine ⟨fun parked c => ?_, run⟩
    rw [State.setBranch_branch]
    split
    · cases mapped with
      | write _ _ | clear _ _ => rfl
      | rewrite _ _ => exact rest parked b
    · exact rest parked c
  | load _ _ _ _ loading =>
    refine ⟨fun parked => absurd parked ?_, fun impossible => nomatch impossible⟩
    have mode := run loading
    simp [mode]
  | cycle =>
    refine ⟨fun parked b => ?_, run⟩
    change ((allotmentCycle s).branch b).state.isAdmitted = false
    rcases allotmentCycle_branch s b with same | ⟨n, target, written⟩
    · rw [same]; exact rest parked b
    · rw [written, allotmentCycle_written target]; exact rest parked b
  | modes _ _ _ _ parked => exact parked ⟨rest, run⟩
  | _ => exact ⟨rest, run⟩

/-- An allotting branch keeps its target in a move, or has none after it. -/
theorem Branch.Move.target {p : Params} {e : MapEntry} {x y : Branch} (h : Branch.Move p e x y)
    (allots : y.state.isAllotting = true) : y.target = none ∨ (y.target = x.target ∧ x.state.isAllotting = true) := by
  cases h
  case restart => unfold Branch.restart; split <;> simp_all
  all_goals simp_all [BranchState.isAllotting, Branch.toFlowing, Branch.backToFlowing, Branch.toSetback, Branch.elapse]

/-- R94: after a cycle every target of an allotting branch is bounded by the active plan, new or old. -/
theorem allotmentCycle_target {b : BranchId} {n : Nat} (floors : FloorsBelowCaps s) (parked : ParkedAtRest s)
    (allots : ((allotmentCycle s).branch b).state.isAllotting = true) (target : n ∈ ((allotmentCycle s).branch b).target) :
    ((allotmentCycle s).activePlan b).floor ≤ n ∧ n ≤ ((allotmentCycle s).activePlan b).cap := by
  have plan : (allotmentCycle s).activePlan b = (swapPlan s).activePlan b := by
    unfold State.activePlan
    rw [allotmentCycle_frame, swapPlan_eq]
  have ordered : ∀ c, ((swapPlan s).activePlan c).floor ≤ ((swapPlan s).activePlan c).cap := by
    intro c
    have same := swapPlan_eq s
    unfold State.activePlan
    rw [same]
    dsimp only
    split
    exacts [(floors c).1, (floors c).2]
  by_cases rests : s.mode = .parking ∨ s.mode = .parked
  · have branch : (allotmentCycle s).branch b = s.branch b := by rw [allotmentCycle_idle rests, swapPlan_eq]; rfl
    rw [branch] at allots
    rcases (BranchState.isAllotting_iff _).mp allots with st | st <;>
      simpa [st, BranchState.isAdmitted] using parked.1 rests b
  · obtain ⟨notParking, notParked⟩ := not_or.mp rests
    rw [allotmentCycle_computes notParking notParked] at allots target
    have allotted : ((swapPlan s).branch b).state.isAllotting = true := by
      cases was : ((swapPlan s).branch b).state.isAllotting
      · rw [compute_branch_other was, was] at allots; exact allots
      · rfl
    obtain ⟨n', fit⟩ := exists_target.mpr (mem_allotting.mpr allotted)
    rw [allotmentCycle_written fit] at target
    obtain rfl : n' = n := by simpa using target
    rw [plan]
    exact cycleFit_bounds fit ordered

theorem Change.keeps_targetsBounded (h : Change own ages s t) (floors : FloorsBelowCaps s) (parked : ParkedAtRest s)
    (k : TargetsBounded s) : TargetsBounded t := by
  cases h with
  | branches v moves =>
    intro b allots n target
    change n ∈ (v.get b).target at target
    rcases (moves b).target allots with none | ⟨same, allotted⟩
    · rw [none] at target; cases target
    · exact k b allotted n (same ▸ target)
  | @rest b y rests =>
    intro c allots n target
    simp only [State.setBranch_branch, State.setBranch_activePlan, State.planToDefaults_activePlan] at allots target ⊢
    by_cases same : c = b
    · rw [if_pos same] at allots
      rcases rests with _ | _
      · cases allots
      · rcases (s.entry b).restState_cases with ⟨_, st⟩ | ⟨_, st⟩ <;> simp [st, BranchState.isAllotting] at allots
    · simp only [same, if_false] at allots target ⊢
      exact k c allots n target
  | @entry b e y _ _ mapped =>
    intro c allots n target
    simp only [State.setBranch_branch] at allots target
    by_cases same : c = b
    · subst same
      rw [if_pos rfl] at allots
      cases mapped with
      | write _ _ | clear _ _ => cases allots
      | rewrite vacant _ => simp [vacant, BranchState.isAllotting] at allots
    · simp only [same, if_false] at allots target
      exact k c allots n target
  | load m v _ _ _ _ _ _ _ starts =>
    intro b allots
    have start := starts b
    change (v.get b).state.isAllotting = true at allots
    generalize v.get b = y at allots start
    rcases start with _ | _ | _ | _ <;> cases allots
  | cycle => exact fun b allots n target => allotmentCycle_target floors parked allots target
  | _ => exact k

/-! ### What the changes keep: the field, the feeds and the leases -/

theorem Change.keeps_measurementsInRange (h : Change own ages s t) (k : MeasurementsInRange s) : MeasurementsInRange t := by
  cases h with
  | field _ _ _ range => exact range k
  | _ => exact k

theorem Change.keeps_linksFit (h : Change own ages s t) (k : LinksFit s) : LinksFit t := by
  cases h with
  | field _ _ _ _ links => exact links k
  | _ => exact k

theorem Change.keeps_dripsBounded (h : Change own ages s t) (k : DripsBounded s) : DripsBounded t := by
  cases h with
  | load _ _ _ _ loading =>
    refine ⟨fun b => ?_, fun loaded => nomatch loaded⟩
    have empty := k.2 loading b
    change (s.drip b).amount ≤ _
    omega
  | drips _ bounded => exact bounded k
  | params _ _ bounded => exact bounded k
  | _ => exact k

theorem Change.keeps_zonesFit (h : Change own ages s t) (k : ZonesFit s) : ZonesFit t := by
  cases h with
  | load _ _ _ _ _ _ _ _ zones => exact fun z => zones z (k z)
  | zones _ fits => exact fun z => fits z (k z)
  | _ => exact k

theorem Change.keeps_inletsAgree (h : Change own ages s t) (k : InletsAgree s) : InletsAgree t := by
  cases h with
  | load _ _ _ _ loading =>
    obtain ⟨active, opening, both, startup, _⟩ := k
    exact ⟨active, opening, both, startup, fun loaded => nomatch loaded⟩
  | feeds _ _ _ _ _ inlets => exact inlets k
  | _ => exact k

theorem Change.keeps_feedsAgree (h : Change own ages s t) (k : FeedsAgree s) : FeedsAgree t := by
  cases h with
  | feeds _ _ _ _ _ _ agree => exact agree k
  | _ => exact k

theorem Change.keeps_leasesOrdered (h : Change own ages s t) (still : ¬ ages) (k : LeasesOrdered s) : LeasesOrdered t := by
  cases h with
  | lease f x ordered =>
    intro g l lease
    rw [State.setLease_lease] at lease
    split at lease
    · exact ordered l lease
    · exact k g l lease
  | leases aged => exact absurd aged still
  | _ => exact k

theorem Change.keeps_feedLock (h : Change own ages s t) (k : s.feedLock = true) : t.feedLock = true := by
  cases h with
  | lock => rfl
  | _ => exact k

/-! ### What the changes keep: the modes, the incidents, the parameters and the store -/

theorem Change.keeps_modesAgree (h : Change own ages s t) (k : ModesAgree s) : ModesAgree t := by
  cases h with
  | modes _ _ _ agree => exact agree k
  | _ => exact k

theorem Change.keeps_incidentsFit (h : Change own ages s t) (k : IncidentsFit s) : IncidentsFit t := by
  cases h with
  | told _ _ incidents => exact incidents k
  | _ => exact k

theorem Change.keeps_paramsInRange (h : Change own ages s t) (k : ParamsInRange s) : ParamsInRange t := by
  cases h with
  | load _ _ _ _ _ _ _ params => exact params
  | params _ range => exact range k
  | _ => exact k

theorem Change.keeps_storeFits (h : Change own ages s t) (k : StoreFits s) : StoreFits t := by
  cases h with
  | store _ fits => exact fits k
  | _ => exact k

theorem Change.keeps_memoryWf (h : Change own ages s t) (fits : StoreFits s) (k : Memory.wf s = true) :
    Memory.wf t = true := by
  cases h with
  | eeprom _ wf => exact wf fits k
  | _ => exact k

/-- A change leaves every byte outside the two areas of the EEPROM as it was (R190). -/
theorem Change.readByte_outside (h : Change own ages s t) (fits : StoreFits s) {a : Nat} (outside : ¬ inAreas a) :
    readByte t.eeprom a = readByte s.eeprom a := by
  cases h with
  | eeprom _ _ areas => exact areas fits a outside
  | _ => rfl

theorem Change.pending (h : Change own ages s t) : t.pending = s.pending := by cases h <;> rfl

/-! ### What the changes keep: the other ports -/

theorem LinkPort.onlyFlagged_refl (x : LinkPort) : x.onlyFlagged x := ⟨rfl, rfl, rfl, BitVec.and_self⟩

theorem LinkPort.onlyFlagged_trans {x y z : LinkPort} (first : x.onlyFlagged y) (second : y.onlyFlagged z) :
    x.onlyFlagged z := by
  obtain ⟨rx, answer, mask, flags⟩ := first
  obtain ⟨rx', answer', mask', flags'⟩ := second
  refine ⟨rx'.trans rx, answer'.trans answer, mask'.trans mask, ?_⟩
  rw [← flags, BitVec.and_assoc, flags']

/-- A port that a change may not write keeps its receive state, its answer, its mask and its flags. -/
theorem Change.onlyFlagged (h : Change own ages s t) {p : Port} (other : ¬ own p) : (s.port p).onlyFlagged (t.port p) := by
  cases h with
  | told _ _ _ flags => exact flags p
  | @port q mine x =>
    rw [State.setPort_port, if_neg (by rintro rfl; exact other mine)]
    exact LinkPort.onlyFlagged_refl _
  | ports all => exact absurd (all p) other
  | _ => exact LinkPort.onlyFlagged_refl _

end Keeps

end Sys2Proof.Machine

/-! ## Every operation is a run of changes: reports, branches, isolation and modes -/

namespace Sys2Proof.Machine

open Sys2Proof

/-! ### Reports and flags -/

/-- From `s` to `t` reports have been taken and flags set, whatever else has changed. -/
structure Told (s t : State) : Prop where
  fits : IncidentsFit s → IncidentsFit t
  flags : ∀ p, (s.port p).onlyFlagged (t.port p)

theorem Told.refl (s : State) : Told s s := ⟨id, fun _ => LinkPort.onlyFlagged_refl _⟩

theorem Told.trans {s t u : State} (first : Told s t) (second : Told t u) : Told s u :=
  ⟨second.fits ∘ first.fits, fun p => LinkPort.onlyFlagged_trans (first.flags p) (second.flags p)⟩

/-- What each element of a list keeps told, the list in its order does. -/
theorem Told.foldl {α : Type} {f : State → α → State} (each : ∀ s x, Told s (f s x)) (xs : List α) (s : State) :
    Told s (xs.foldl f s) := by
  induction xs generalizing s with
  | nil => exact .refl s
  | cons x xs ih => exact (each s x).trans (ih _)

theorem LinkPort.onlyFlagged_flag (c : Notice) (x : LinkPort) : x.onlyFlagged (x.flag c) := by
  refine ⟨rfl, rfl, rfl, ?_⟩
  ext i
  simp only [LinkPort.flag, BitVec.getElem_and, BitVec.getElem_or]
  cases x.flags[i] <;> simp

theorem Told.notifyAll (c : Notice) (s : State) : Told s (notifyAll c s) :=
  ⟨id, fun p => by rw [notifyAll_port]; exact LinkPort.onlyFlagged_flag c _⟩

theorem Told.notify (p : Port) (c : Notice) (s : State) : Told s (notify p c s) := by
  refine ⟨id, fun q => ?_⟩
  unfold Machine.notify
  rw [State.setPort_port]
  split
  · rename_i same; rw [same]; exact LinkPort.onlyFlagged_flag c _
  · exact LinkPort.onlyFlagged_refl _

/-- A report keeps the Incident List in bounds (R174). -/
theorem IncidentsFit.report {s : State} (kind : Kind) (subject : Subject) (detail : Option Int) (fits : IncidentsFit s) :
    IncidentsFit (report kind subject detail s) := by
  obtain ⟨few, kinds, numbers, overflow, next⟩ := fits
  by_cases known : ∃ r ∈ s.incidents.records, r.kind = kind ∧ r.subject = subject
  · rw [report_merged detail known]
    refine ⟨by simpa using few, ?_, ?_, overflow, next⟩
    · rw [List.map_map]
      refine Eq.subst (motive := List.Nodup) (List.map_congr_left fun r _ => ?_) kinds
      dsimp only [Function.comp]
      split <;> rfl
    · rw [List.map_map]
      refine Eq.subst (motive := List.Nodup) (List.map_congr_left fun r _ => ?_) numbers
      dsimp only [Function.comp]
      split <;> rfl
  · by_cases room : s.incidents.records.length < 32
    · obtain ⟨k, -, found, free, -⟩ := freshSequence_free (used := s.incidents.records.map (·.sequence)) (by simpa) next
      rw [report_appended detail known room found]
      refine ⟨?_, ?_, ?_, overflow, Nat.mod_lt _ (by decide)⟩
      · simp only [notifyAll, List.length_append, List.length_singleton]
        omega
      · simp only [notifyAll, List.map_append, List.map_singleton]
        refine List.nodup_append'.mpr ⟨kinds, List.nodup_singleton _, ?_⟩
        rw [List.disjoint_singleton]
        intro listed
        obtain ⟨r, hr, same⟩ := List.mem_map.mp listed
        exact known ⟨r, hr, (Prod.mk.inj same).1, (Prod.mk.inj same).2⟩
      · simp only [notifyAll, List.map_append, List.map_singleton]
        exact List.nodup_append'.mpr ⟨numbers, List.nodup_singleton _, by rw [List.disjoint_singleton]; exact free⟩
    · rw [report_overflowed detail known (Nat.le_of_not_lt room)]
      exact ⟨few, kinds, numbers, by simp, next⟩

theorem Told.report (kind : Kind) (subject : Subject) (detail : Option Int) (s : State) :
    Told s (report kind subject detail s) := by
  refine ⟨IncidentsFit.report kind subject detail, fun p => ?_⟩
  simp only [Machine.report]
  split
  · rw [notifyAll_port]; exact LinkPort.onlyFlagged_flag _ _
  · exact LinkPort.onlyFlagged_refl _

section

variable {own : Port → Prop} {ages : Prop} {s t u : State}

theorem Told.change (h : Told s t) : Changes own ages s { s with incidents := t.incidents, ports := t.ports } :=
  .single (.told s t.incidents t.ports h.fits h.flags)

/-- Changes whose last one is a report. -/
theorem Changes.report (kind : Kind) (subject : Subject) (detail : Option Int) (h : Changes own ages s t) :
    Changes own ages s (report kind subject detail t) := by
  refine h.trans ?_
  rw [report_frame]
  exact (Told.report kind subject detail t).change

theorem Changes.notifyAll (c : Notice) (h : Changes own ages s t) : Changes own ages s (notifyAll c t) :=
  h.trans (Told.notifyAll c t).change

theorem Changes.notify (p : Port) (c : Notice) (h : Changes own ages s t) : Changes own ages s (notify p c t) :=
  h.trans (Told.notify p c t).change

/-- A part whose load is complete does not return to the load. -/
theorem Changes.loaded (h : Changes own ages s t) (loaded : s.loading = false) : t.loading = false := by
  refine h.keeps (P := fun s => s.loading = false) (fun change loaded => ?_) loaded
  cases change with
  | load => rfl
  | _ => exact loaded

/-- Changes element by element. -/
theorem Changes.foldl {α : Type} {f : State → α → State} (each : ∀ s x, Changes own ages s (f s x)) (xs : List α)
    (h : Changes own ages s t) : Changes own ages s (xs.foldl f t) := by
  induction xs generalizing t with
  | nil => exact h
  | cons x xs ih => exact ih (h.trans (each t x))

/-- Changes element by element, in a part whose load is complete. -/
theorem Changes.foldl_loaded {α : Type} {f : State → α → State}
    (each : ∀ s x, s.loading = false → Changes own ages s (f s x)) (xs : List α) (loaded : s.loading = false) :
    Changes own ages s (xs.foldl f s) := by
  induction xs generalizing s with
  | nil => exact .refl
  | cons x xs ih => exact (each s x loaded).trans (ih ((each s x loaded).loaded loaded))

/-! ### Branch records -/

/-- A move of one branch's record. -/
theorem Branch.Move.change {b : BranchId} {y : Branch} (move : Branch.Move s.params (s.entry b) (s.branch b) y)
    (admits : s.mode = .run ∨ (y.state.isAdmitted = true → (s.branch b).state.isAdmitted = true)) :
    Changes own ages s (s.setBranch b y) := by
  refine .single (.branches s _ (fun c => ?_) (admits.imp_right fun admits c => ?_))
  · rw [get_put]
    split
    · rename_i same; subst same; exact move
    · exact .stay _
  · rw [get_put]
    split
    · rename_i same; subst same; exact admits
    · exact id

/-- A move of one branch's record with BRANCH_CHANGED. -/
theorem Branch.Move.enter {b : BranchId} {y : Branch} (move : Branch.Move s.params (s.entry b) (s.branch b) y)
    (admits : s.mode = .run ∨ (y.state.isAdmitted = true → (s.branch b).state.isAdmitted = true)) :
    Changes own ages s (enter b y s) := (move.change admits).notifyAll .branchChanged

theorem release_changes {b : BranchId} (admitted : (s.branch b).state.isAdmitted = true) :
    Changes own ages s (releaseBranch b s) :=
  Changes.notifyAll .branchChanged (.single (.rest s (.release admitted)))

theorem put_get {α : Type} {n : Nat} (v : Vector α n) (i : Fin n) : put v i (v.get i) = v := by
  ext j hj
  simp only [put, Vector.getElem_set]
  split
  · rename_i same; subst same; rfl
  · rfl

@[simp] theorem State.setBranch_self (s : State) (b : BranchId) : s.setBranch b (s.branch b) = s := by
  simp only [State.setBranch, State.branch, put_get]

/-- What a stored or sent entry holds where it can be read (R9): a tag, and every field in its range. -/
theorem entryOfBytes_fits {bs : List Byte} {place : Nat} {e : MapEntry} {clamped : Bool}
    (h : entryOfBytes bs place = some (e, clamped)) : e.fits ∧ e.slotTag ≠ none := by
  unfold entryOfBytes at h
  split at h
  · obtain ⟨rfl, -⟩ := Prod.mk.inj (Option.some.inj h)
    refine ⟨⟨nofun, ⟨?_, ?_⟩, ⟨?_, ?_⟩, ⟨?_, ?_⟩⟩, nofun⟩
    exacts [le_saturate (by decide) _, saturate_le (by decide) _, le_saturate (by decide) _, saturate_le (by decide) _,
      le_saturate (by decide) _, saturate_le (by decide) _]
  · cases h

theorem MapEntry.default_fits : MapEntry.default.fits := by simp [MapEntry.fits, MapEntry.default]

theorem tagTaken_iff {s : State} {b : BranchId} {tag : Option SlotTag} :
    tagTaken s b tag = true ↔ tag ≠ none ∧ ∃ c, c ≠ b ∧ (s.entry c).slotTag = tag := by
  simp only [tagTaken, allBranches, List.any_eq_true, List.mem_finRange, true_and, decide_eq_true_eq]
  constructor
  · rintro ⟨c, other, valid, same⟩; exact ⟨valid, c, other, same⟩
  · rintro ⟨valid, c, other, same⟩; exact ⟨c, other, valid, same⟩

theorem writeEntry_changes {b : BranchId} {e : MapEntry} (fits : e.fits) (valid : e.slotTag ≠ none)
    (free : tagTaken s b e.slotTag = false) (rest : (s.branch b).state = .unmapped ∨ (s.branch b).state = .vacant) :
    Changes own ages s (writeEntry b e s) := by
  have distinct : e.slotTag ≠ none → ∀ c, c ≠ b → (s.entry c).slotTag ≠ e.slotTag := by
    intro _ c other same
    rw [tagTaken_iff.mpr ⟨valid, c, other, same⟩] at free
    cases free
  unfold writeEntry
  dsimp only
  rcases rest with unmapped | vacant
  · rw [if_pos unmapped]
    exact Changes.notifyAll .branchChanged (.single (.entry s fits distinct (.write unmapped valid)))
  · rw [if_neg (by simp [vacant])]
    have change : Change own ages s _ := .entry s fits distinct (.rewrite vacant valid)
    rw [show (s.setEntry b e).setBranch b (s.branch b) = s.setEntry b e from State.setBranch_self (s.setEntry b e) b] at change
    exact .single change

theorem mapWrite_changes (body : List Byte) (b : BranchId) : Changes own ages s (mapWrite body b s).2 := by
  unfold mapWrite
  split
  · exact .refl
  split
  · exact .refl
  rename_i rest
  split
  · exact .refl
  rename_i e clamped entry
  split
  · exact .refl
  rename_i free
  obtain ⟨fits, valid⟩ := entryOfBytes_fits entry
  exact writeEntry_changes fits valid (Bool.eq_false_iff.mpr free) (by tauto)

theorem mapClear_changes (b : BranchId) : Changes own ages s (mapClear b s).2 := by
  unfold mapClear
  split
  · exact .refl
  split
  · exact .refl
  rename_i vacant
  exact Changes.notifyAll .branchChanged (.single (.entry s MapEntry.default_fits (fun valid => absurd rfl valid)
    (.clear (not_not.mp vacant) rfl)))

theorem admitBranch_changes (b : BranchId) : Changes own ages s (admitBranch b s).2 := by
  unfold admitBranch
  split
  · exact .refl
  rename_i mode
  split
  · exact .refl
  split
  · exact .refl
  rename_i rest
  exact Branch.Move.enter (.prime (by tauto)) (.inl (by tauto))

theorem releaseRequest_changes (b : BranchId) : Changes own ages s (release b s).2 := by
  unfold release
  split
  · exact release_changes ‹_›
  · exact .refl

theorem pin_changes (position : Nat) (b : BranchId) : Changes own ages s (pin position b s).2 := by
  have few : saturate 0 1000 position ≤ 1000 := saturate_le (by decide) _
  unfold pin
  dsimp only
  split
  · rename_i st; exact Branch.Move.enter (.pin _ (.inl st) few) (.inr fun _ => by rw [st]; rfl)
  · rename_i st; exact Branch.Move.enter (.pin _ (.inr st) few) (.inr fun _ => by rw [st]; rfl)
  · rename_i st; exact Branch.Move.change (.repin _ st few) (.inr id)
  · exact .refl

theorem unpin_changes (b : BranchId) : Changes own ages s (unpin b s).2 := by
  unfold unpin
  split
  · rename_i st; exact Branch.Move.enter (.unpin st) (.inr fun _ => by rw [st]; rfl)
  · exact .refl

theorem demandRefresh_changes (b : BranchId) : Changes own ages s (demandRefresh b s) := by
  unfold demandRefresh
  split
  · rename_i st
    split
    · exact Branch.Move.change (.refresh st ‹_›) (.inr id)
    · exact .refl
  · rename_i st; exact Branch.Move.enter (.back st) (.inr fun _ => by rw [st]; rfl)
  · exact .refl

theorem setDemand_changes (demand : Nat) (b : BranchId) (loaded : s.loading = false) :
    Changes own ages s (setDemand demand b s).2 := by
  unfold setDemand
  split
  · exact .refl
  rename_i takes
  have written : Changes own ages s (s.setPendingPlan b { s.pendingPlan b with demand := saturate 0 2000 demand }) :=
    .single (.plan s loaded (Bool.eq_false_iff.mpr takes) id fun ⟨_, limits⟩ =>
      ⟨saturate_le (hi := 2000) (Nat.zero_le _) demand, limits⟩)
  exact written.trans (demandRefresh_changes b)

theorem setLimits_changes (floor cap weight : Nat) (b : BranchId) (loaded : s.loading = false) :
    Changes own ages s (setLimits floor cap weight b s).2 := by
  unfold setLimits
  split
  · exact .refl
  rename_i takes
  split
  · exact .refl
  rename_i ordered
  refine .single (.plan s loaded (Bool.eq_false_iff.mpr takes) (fun _ => Nat.le_of_not_lt ordered) fun ⟨demand, _⟩ => ?_)
  have few (z : Int) : saturate 0 2000 z ≤ 2000 := saturate_le (Nat.zero_le _) z
  exact ⟨demand, few floor, few cap, le_saturate (by decide) weight, saturate_le (by decide) weight⟩

theorem primeWindowEnds_changes {b : BranchId} (st : (s.branch b).state = .priming) :
    Changes own ages s (primeWindowEnds b s) := by
  have admitted : (s.branch b).state.isAdmitted = true := by rw [st]; rfl
  unfold primeWindowEnds
  dsimp only
  split
  · exact Branch.Move.enter (.backoff _ st ‹_›) (.inr fun _ => admitted)
  · exact Changes.report _ _ _ (Branch.Move.enter (.noflow st) (.inr fun _ => admitted))

theorem enterPriming_changes {b : BranchId} (st : (s.branch b).state = .backoff) :
    Changes own ages s (enterPriming b ((s.branch b).attempts + 1) s) :=
  Branch.Move.enter (.again st) (.inr fun _ => by rw [st]; rfl)

theorem toSetback_changes {b : BranchId} (st : (s.branch b).state = .flowing) :
    Changes own ages s (enter b (s.branch b).toSetback s) := Branch.Move.enter (.expire st) (.inr fun _ => by rw [st]; rfl)

/-! ### Marks and isolation orders -/

/-- A mark write handed on keeps the queue and the write in progress well formed (R194). -/
theorem StoreFits.handMark (b : BranchId) (value : Bool) (fits : StoreFits s) : StoreFits (handMark b value s) := by
  obtain ⟨save, nodup, write⟩ := fits
  refine ⟨save, ?_, ?_⟩
  · simp only [Machine.handMark, queueMark]
    split
    · rw [List.map_map, show (fun e : MarkEntry => e.branch) ∘ _ = fun e => e.branch from
        funext fun e => by dsimp only [Function.comp]; split <;> rfl]
      exact nodup
    · rename_i fresh
      simp only [List.map_append, List.map_singleton]
      refine List.nodup_append'.mpr ⟨nodup, List.nodup_singleton _, ?_⟩
      rw [List.disjoint_singleton]
      intro queued
      obtain ⟨e, he, same⟩ := List.mem_map.mp queued
      exact fresh (List.any_eq_true.mpr ⟨e, he, by simpa using same⟩)
  · intro w' handed
    obtain ⟨w, hw, rfl⟩ := Option.map_eq_some_iff.mp handed
    obtain ⟨e, head, branch, value⟩ := write w hw
    obtain ⟨rest, queue⟩ := List.head?_eq_some_iff.mp head
    simp only [Machine.handMark, queueMark, queue]
    split
    · refine ⟨_, rfl, ?_, fun kept => ?_⟩ <;> dsimp only
      · split <;> exact branch
      · simp only [MarkWrite.handed, Bool.or_eq_false_iff, beq_eq_false_iff_ne] at kept
        rw [if_neg (by rw [branch]; exact kept.2)]
        exact value kept.1
    · refine ⟨e, rfl, branch, fun kept => ?_⟩
      simp only [MarkWrite.handed, Bool.or_eq_false_iff] at kept
      exact value kept.1

theorem handMark_changes (b : BranchId) (value : Bool) : Changes own ages s (handMark b value s) :=
  .single (.store s _ (StoreFits.handMark b value))

theorem isolate_changes (r : IsolationReason) (b : BranchId) (s : State) : Changes own ages s (isolate r b s) := by
  have order : Changes own ages s (s.setBranch b (Branch.toIsolating r s.params.isolateWindow)) :=
    Branch.Move.change (.order r) (.inr nofun)
  unfold isolate
  split
  · refine Changes.notifyAll _ ?_
    unfold takeOrder
    dsimp only
    split
    · exact order
    · exact order.trans (handMark_changes b true)
  · exact .refl

theorem isolateAll_changes (r : IsolationReason) (bs : List BranchId) (s : State) :
    Changes own ages s (isolateAll r bs s) := Changes.foldl (fun t b => isolate_changes r b t) bs .refl

theorem isolationProgress_changes {b : BranchId} (st : (s.branch b).state = .isolating) :
    Changes own ages s (isolationProgress b s) := by
  unfold isolationProgress
  dsimp only
  split
  · split
    · exact Branch.Move.change (.closeReturn st) (.inr id)
    · exact .refl
  · split
    · exact Changes.report _ _ _ (Branch.Move.enter (.isolated st) (.inr nofun))
    · exact .refl
  · exact .refl

/-! ### Modes and fault hold -/

theorem faultCause_changes (cause : FaultCause) (loaded : s.loading = false) : Changes own ages s (faultCause cause s) := by
  unfold faultCause
  split
  · refine Changes.notifyAll _ (.single (.modes s s.mode _ s.park (fun ⟨_, _, park⟩ => ⟨nofun, ?_, park⟩) id))
    rintro h ⟨⟩
    simp
  · rename_i h held
    have counted : Changes own ages s { s with faultHold := some { h with count := min (h.count + 1) 255 } } := by
      refine .single (.modes s s.mode _ s.park (fun ⟨_, _, park⟩ => ⟨nofun, ?_, park⟩) id)
      rintro h' ⟨⟩
      dsimp only
      omega
    dsimp only
    split
    · exact counted
    · refine counted.trans (Changes.report _ _ _ (Changes.notifyAll _
        (.single (.modes _ .safe (some { h with count := min (h.count + 1) 255 }) none ?_ ?_))))
      · exact fun ⟨_, count, _⟩ => ⟨nofun, count, rfl⟩
      · exact fun _ => ⟨nofun, fun loading => absurd (loaded.symm.trans loading) nofun⟩

theorem isolateWindowEnds_changes {b : BranchId} (st : (s.branch b).state = .isolating) (loaded : s.loading = false) :
    Changes own ages s (isolateWindowEnds b s) := by
  have first : Changes own ages s
      (report .isolateFault (.branch b) (some (faultDetail (s.branch b))) (enter b (s.branch b).toIsolateFault s)) :=
    Changes.report _ _ _ (Branch.Move.enter (.fault st) (.inr nofun))
  have escalated : Changes own ages s _ := first.trans (isolateAll_changes .escalation (siblings b) _)
  exact escalated.trans (faultCause_changes _ (Changes.loaded escalated loaded))

/-- A change of mode, with what it does to fault hold and to the park record. -/
theorem setMode_changes {m : Mode} {h : Option FaultHold} {k : Option Park}
    (agree : ModesAgree s → ModesAgree { s with mode := m, faultHold := h, park := k })
    (parked : ParkedAtRest s → ParkedAtRest { s with mode := m }) :
    Changes own ages s (setMode m { s with faultHold := h, park := k }) :=
  Changes.notifyAll _ (.single (.modes s m h k agree parked))

theorem ParkedAtRest.run : ParkedAtRest { s with mode := .run } :=
  ⟨fun parked => parked.elim nofun nofun, fun _ => rfl⟩

theorem clearFault_changes : Changes own ages s (clearFault s).2 := by
  unfold clearFault
  split
  · exact .refl
  rename_i safe
  split
  · exact .refl
  split
  · exact .refl
  exact Changes.notifyAll _ (.single (.modes s s.mode none s.park
    (fun ⟨_, _, park⟩ => ⟨fun mode => absurd mode safe, nofun, park⟩) id))

theorem clearSafe_changes : Changes own ages s (clearSafe s).2 := by
  unfold clearSafe
  split
  · exact .refl
  rename_i safe
  split
  · exact .refl
  refine setMode_changes (k := s.park) (fun ⟨_, _, park⟩ => ⟨nofun, nofun, ?_⟩) fun _ => ParkedAtRest.run
  simpa [not_not.mp safe] using park

theorem hold_changes (loaded : s.loading = false) : Changes own ages s (hold s).2 := by
  unfold hold
  split
  · rename_i run
    refine setMode_changes (h := s.faultHold) (k := s.park) (fun ⟨_, count, park⟩ => ⟨nofun, count, ?_⟩) fun _ =>
      ⟨fun parked => parked.elim nofun nofun, fun loading => absurd (loaded.symm.trans loading) nofun⟩
    simpa [run] using park
  · exact .refl

theorem releaseHold_changes : Changes own ages s (releaseHold s).2 := by
  unfold releaseHold
  split
  · rename_i held
    refine setMode_changes (h := s.faultHold) (k := s.park) (fun ⟨_, count, park⟩ => ⟨nofun, count, ?_⟩) fun _ =>
      ParkedAtRest.run
    simpa [held] using park
  · exact .refl

/-! ### Restoration and parking -/

theorem restore_changes {b : BranchId} (restorable : (s.branch b).state.isRestorable = true) :
    Changes own ages s (restore b s) := by
  have empty : Changes own ages s (s.setDrip b { s.drip b with amount := 0, level := .none }) := by
    refine .single (.drips s _ fun ⟨bounded, empty⟩ => ⟨fun c => ?_, fun loading c => ?_⟩)
    · change ((s.setDrip b _).drip c).amount ≤ _
      rw [State.setDrip_drip]
      split
      · exact Nat.zero_le _
      · exact bounded c
    · change ((s.setDrip b _).drip c).amount = 0
      rw [State.setDrip_drip]
      split
      · rfl
      · exact empty loading c
  exact Changes.notifyAll _ ((empty.trans (handMark_changes b false)).tail (.rest _ (.restore restorable)))

theorem restoreBranch_changes (b : BranchId) : Changes own ages s (restoreBranch b s).2 := by
  unfold restoreBranch
  split
  · exact .refl
  rename_i restorable
  split
  · exact .refl
  exact restore_changes (by simpa using restorable)

theorem restoreByRack_changes (b : BranchId) : Changes own ages s (restoreByRack b s).2 := by
  unfold restoreByRack
  split
  · exact .refl
  · exact restoreBranch_changes b

theorem restoreZone_changes (z : SegId) : Changes own ages s (restoreZone z s).2 := by
  unfold restoreZone
  split
  · exact .refl
  refine Changes.foldl (fun t b => ?_) _ .refl
  split
  · exact restore_changes ‹_›
  · exact .refl

theorem parkBranch_changes (b : BranchId) : Changes own ages s (parkBranch s b) := by
  unfold parkBranch
  split
  · exact release_changes ‹_›
  · exact .refl

@[simp] theorem releaseBranch_branch (s : State) (b c : BranchId) :
    (releaseBranch b s).branch c = if c = b then (s.branch b).atRest .vacant 0 none else s.branch c := by
  simp [releaseBranch]

theorem parkBranch_branch (s : State) (b c : BranchId) : (parkBranch s b).branch c =
    if c = b ∧ (s.branch c).state.isAdmitted = true then (s.branch c).atRest .vacant 0 none else s.branch c := by
  unfold parkBranch
  by_cases same : c = b
  · subst same
    by_cases admitted : (s.branch c).state.isAdmitted = true <;> simp [admitted]
  · split <;> simp [same]

/-- PARK's release of each admitted branch of a list (R58). -/
theorem foldl_parkBranch_branch (bs : List BranchId) (c : BranchId) : ∀ s : State, (bs.foldl parkBranch s).branch c =
    if c ∈ bs ∧ (s.branch c).state.isAdmitted = true then (s.branch c).atRest .vacant 0 none else s.branch c := by
  induction bs with
  | nil => simp
  | cons b bs ih =>
    intro s
    rw [List.foldl_cons, ih, parkBranch_branch]
    have vacant : BranchState.vacant.isAdmitted = false := rfl
    by_cases same : c = b
    · subst same
      by_cases admitted : (s.branch c).state.isAdmitted = true <;> simp [admitted, vacant]
    · simp [same]

theorem not_admitted_after_parking (s : State) (b : BranchId) :
    ((allBranches.foldl parkBranch s).branch b).state.isAdmitted = false := by
  rw [foldl_parkBranch_branch]
  split
  · rfl
  · rename_i not
    exact Bool.eq_false_iff.mpr fun admitted => not ⟨List.mem_finRange b, admitted⟩

theorem park_changes (loaded : s.loading = false) : Changes own ages s (park s).2 := by
  unfold park
  split
  · exact .refl
  have released : Changes own ages s (allBranches.foldl parkBranch s) :=
    Changes.foldl (fun _ b => parkBranch_changes b) _ .refl
  have stillLoaded := Changes.loaded released loaded
  have none := not_admitted_after_parking s
  dsimp only
  generalize allBranches.foldl parkBranch s = t at released stillLoaded none ⊢
  exact released.trans (setMode_changes (m := .parking) (h := t.faultHold)
    (k := some { window := Timer.start s.params.parkWindow, confirmed := 0 }) (fun ⟨_, count, _⟩ => ⟨nofun, count, rfl⟩)
    fun _ => ⟨fun _ => none, fun loading => absurd (stillLoaded.symm.trans loading) nofun⟩)

theorem parkEnds_changes (parking : s.mode = .parking) (loaded : s.loading = false) : Changes own ages s (parkEnds s) :=
  setMode_changes (h := s.faultHold) (fun ⟨_, count, _⟩ => ⟨nofun, count, rfl⟩)
    fun ⟨rest, _⟩ => ⟨fun _ => rest (.inl parking), fun loading => absurd (loaded.symm.trans loading) nofun⟩

theorem unpark_changes : Changes own ages s (unpark s).2 := by
  unfold unpark
  split
  · exact setMode_changes (h := s.faultHold) (fun ⟨_, count, _⟩ => ⟨nofun, count, rfl⟩) fun _ => ParkedAtRest.run
  · exact .refl

theorem parkTest_changes (z : SegId) (loaded : s.loading = false) : Changes own ages s (parkTest z s) := by
  unfold parkTest
  split
  · rename_i p parking present
    dsimp only
    split
    · exact parkEnds_changes parking loaded
    · refine .single (.modes s s.mode s.faultHold _ (fun ⟨safe, count, _⟩ => ⟨safe, count, ?_⟩) id)
      simp [parking]
  · exact .refl

theorem parkWindowEnds_changes (loaded : s.loading = false) : Changes own ages s (parkWindowEnds s) := by
  unfold parkWindowEnds
  split
  · rename_i p parking present
    split
    · exact Changes.report _ _ _ (parkEnds_changes parking loaded)
    · exact .refl
  · exact .refl

end

end Sys2Proof.Machine

/-! ## Every operation is a run of changes: feeds, leases and the passing of time -/

namespace Sys2Proof.Machine

open Sys2Proof

section

variable {own : Port → Prop} {ages : Prop} {s t : State}

/-! ### The feed invariants under the operations -/

theorem Feed.ne_other (f : Feed) : f ≠ f.other := by cases f <;> decide

theorem InletsAgree.cancelSwitch {w : Switch} (inFlight : s.switch = some w) (opening : w.phase = .opening)
    (k : InletsAgree s) : InletsAgree (cancelSwitch w s) := by
  obtain ⟨active, agree, both, startup, loading⟩ := k
  obtain ⟨-, target, -⟩ := agree w inFlight opening
  refine ⟨?_, nofun, fun shut => absurd (both shut).2 (by simp [inFlight]), fun st => ⟨rfl, (startup st).2⟩,
    fun st => ⟨rfl, (loading st).2⟩⟩
  change ((s.setInlet w.target .closed).feed s.activeFeed).inlet = .opened
  rw [State.setInlet_feed, target, if_neg (Feed.ne_other _)]
  exact active

theorem FeedsAgree.setFeed {f : Feed} {x : FeedRecord} (fits : (x.failed = true → x.lowTimer = none) ∧ x.proof ≤ 3)
    (k : FeedsAgree s) : FeedsAgree (s.setFeed f x) := by
  intro g
  rw [State.setFeed_feed]
  split
  · exact fits
  · exact k g

theorem FeedsAgree.setInlet (f : Feed) (v : Valve) (k : FeedsAgree s) : FeedsAgree (s.setInlet f v) :=
  FeedsAgree.setFeed (k f) k

theorem cancelSwitch_changes {w : Switch} (inFlight : s.switch = some w) (opening : w.phase = .opening) :
    Changes own ages s (cancelSwitch w s) :=
  .single (.feeds s _ s.activeFeed none s.startup s.bothOpen (InletsAgree.cancelSwitch inFlight opening)
    (FeedsAgree.setInlet w.target .closed))

theorem failSwitch_changes {w : Switch} (inFlight : s.switch = some w) (opening : w.phase = .opening) :
    Changes own ages s (failSwitch w s) := Changes.report _ _ _ (cancelSwitch_changes inFlight opening)

/-- The switch record ends; the inlets stay as they are commanded. -/
theorem dropRecord_changes (s : State) : Changes own ages s { s with switch := none } := by
  refine .single (.feeds s s.feeds s.activeFeed none s.startup s.bothOpen ?_ id)
  rintro ⟨active, _, both, startup, loading⟩
  exact ⟨active, nofun, fun h => ⟨(both h).1, rfl⟩, fun h => ⟨rfl, (startup h).2⟩, fun h => ⟨rfl, (loading h).2⟩⟩

theorem beginSwitch_changes {target : Feed} (requester : Requester) (standby : target = s.activeFeed.other)
    (loaded : s.loading = false) : Changes own ages s (beginSwitch target requester s) := by
  subst standby
  refine .single (.feeds s _ s.activeFeed _ none false ?_ ?_)
  · rintro ⟨active, -⟩
    change InletsAgree (beginSwitch s.activeFeed.other requester s)
    refine ⟨?_, ?_, nofun, fun h => absurd rfl h, fun h => absurd (loaded.symm.trans h) nofun⟩
    · change ((s.setFeed _ _).feed s.activeFeed).inlet = .opened
      rw [State.setFeed_feed, if_neg (Feed.ne_other _)]
      exact active
    · rintro w ⟨⟩ -
      refine ⟨rfl, rfl, ?_⟩
      change ((s.setFeed _ _).feed _).inlet = .opened
      rw [State.setFeed_feed, if_pos rfl]
  · exact fun agree => FeedsAgree.setFeed ⟨(agree _).1, Nat.zero_le _⟩ agree

/-- The active feed changes, with what becomes of the feeds, the switch, the start-up and both-open (R79, R122). -/
theorem turn_changes {v : Vector FeedRecord 2} {f : Feed} {w : Option Switch} {u : Option Timer} {o : Bool}
    (inlets : InletsAgree s → InletsAgree { s with feeds := v, activeFeed := f, switch := w, startup := u, bothOpen := o })
    (agree : FeedsAgree s → FeedsAgree { s with feeds := v }) :
    Changes own ages s (notifyAll .feedChanged { s with
      feeds := v, activeFeed := f, switch := w, startup := u, bothOpen := o, timer := s.timer.turned }) := by
  refine Changes.notifyAll _ (.trans (.single (.feeds s v f w u o inlets agree)) (.single ?_))
  exact .frame _

/-! ### Switches and the failover monitor -/

theorem proveSwitch_changes {w : Switch} (inFlight : s.switch = some w) (opening : w.phase = .opening) :
    Changes own ages s (proveSwitch w s) := by
  refine turn_changes (s := s) ?_ (FeedsAgree.setInlet w.origin .closed)
  rintro ⟨active, agree, both, startup, loading⟩
  obtain ⟨origin, target, opened⟩ := agree w inFlight opening
  refine ⟨?_, ?_, fun h => absurd (both h).2 (by simp [inFlight]), fun h => absurd (startup h).1 (by simp [inFlight]),
    fun h => absurd (loading h).1 (by simp [inFlight])⟩
  · change ((s.setInlet w.origin .closed).feed w.target).inlet = .opened
    rw [State.setInlet_feed, origin, target, if_neg (Feed.ne_other _).symm, ← target]
    exact opened
  · rintro w' ⟨⟩ again
    cases again

theorem switchFeed_changes (p : Port) (code : Nat) (loaded : s.loading = false) :
    Changes own ages s (switchFeed p code s).2 := by
  unfold switchFeed
  split
  · exact .refl
  split
  · exact .refl
  split
  · exact .refl
  split
  · split
    · exact .refl
    rename_i other
    split
    · exact .refl
    · exact beginSwitch_changes _ ((Feed.ne_iff _ _).mp other) loaded
  · rename_i w inFlight
    split
    · exact .refl
    split
    · exact cancelSwitch_changes inFlight ‹_›
    · exact .refl

theorem openingEnds_changes : Changes own ages s (openingEnds s) := by
  unfold openingEnds
  split
  · rename_i w inFlight
    split
    · rename_i ends; exact failSwitch_changes inFlight ends.1
    · exact .refl
  · exact .refl

theorem closingOldEnds_changes : Changes own ages s (closingOldEnds s) := by
  unfold closingOldEnds
  split
  · split
    · exact Changes.report _ _ _ (dropRecord_changes s)
    · exact .refl
  · exact .refl

theorem bothFeedsFailed_changes (loaded : s.loading = false) : Changes own ages s (bothFeedsFailed s) := by
  have opened : Changes own ages s { (s.setInlet .a .opened).setInlet .b .opened with
      switch := none, startup := none, bothOpen := true } := by
    refine .single (.feeds s _ s.activeFeed none none true ?_ fun k => (FeedsAgree.setInlet .b .opened
      (FeedsAgree.setInlet .a .opened k)))
    have all (f : Feed) : (((s.setInlet .a .opened).setInlet .b .opened).feed f).inlet = .opened := by
      cases f <;> simp
    exact fun _ => ⟨all _, nofun, fun _ => ⟨all _, rfl⟩, fun h => absurd rfl h,
      fun h => absurd (loaded.symm.trans h) nofun⟩
  have reported : Changes own ages s _ := Changes.report .bothFeedsFailed .nothing none opened
  exact reported.trans (faultCause_changes _ (Changes.loaded reported loaded))

/-- One inlet commanded OPEN and the other CLOSED (R130, R135). -/
theorem exchangeInlets_inlet (s : State) (f : Feed) :
    (((s.setInlet f.other .opened).setInlet f .closed).feed f.other).inlet = .opened := by
  rw [State.setInlet_feed, if_neg (Feed.ne_other f).symm, State.setInlet_feed, if_pos rfl]

theorem exchangeInlets_agree (f : Feed) (k : FeedsAgree s) :
    FeedsAgree ((s.setInlet f.other .opened).setInlet f .closed) :=
  FeedsAgree.setInlet f .closed (FeedsAgree.setInlet f.other .opened k)

theorem failover_changes (f : Feed) : Changes own ages s (failover f s) := by
  refine Changes.report _ _ _ (turn_changes (s := s) (w := none) (u := none) (o := false) ?_ (exchangeInlets_agree f))
  exact fun _ => ⟨exchangeInlets_inlet s f, nofun, nofun, fun h => absurd rfl h, fun _ => ⟨rfl, rfl⟩⟩

theorem failSwitchToward_changes (f : Feed) : Changes own ages s (failSwitchToward f s) := by
  unfold failSwitchToward
  split
  · rename_i w inFlight
    split
    · rename_i toward; exact failSwitch_changes inFlight toward.2
    · exact .refl
  · exact .refl

/-- A feed record written with its inlet as it was. -/
theorem setFeed_changes {f : Feed} {x : FeedRecord} (inlet : x.inlet = (s.feed f).inlet)
    (fits : (s.feed f).proof ≤ 3 → (x.failed = true → x.lowTimer = none) ∧ x.proof ≤ 3) :
    Changes own ages s (s.setFeed f x) := by
  have same (g : Feed) : ((s.setFeed f x).feed g).inlet = (s.feed g).inlet := by
    rw [State.setFeed_feed]
    split
    · rename_i here; rw [here, inlet]
    · rfl
  refine .single (.feeds s _ s.activeFeed s.switch s.startup s.bothOpen ?_ fun k => FeedsAgree.setFeed (fits (k f).2) k)
  rintro ⟨active, agree, both, startup, loading⟩
  refine ⟨(same _).trans active, fun w inFlight opening => ?_, fun h => ?_, startup, loading⟩
  · obtain ⟨origin, target, opened⟩ := agree w inFlight opening
    exact ⟨origin, target, (same _).trans opened⟩
  · exact ⟨(same _).trans (both h).1, (both h).2⟩

theorem markFailed_changes (f : Feed) (loaded : s.loading = false) : Changes own ages s (markFailed f s) := by
  have marked : Changes own ages s (s.setFeed f { s.feed f with failed := true, lowTimer := none, proof := 0 }) :=
    setFeed_changes rfl fun _ => ⟨fun _ => rfl, Nat.zero_le _⟩
  unfold markFailed
  dsimp only
  split
  · have failed : Changes own ages s _ := marked.trans (failSwitchToward_changes f)
    exact failed.trans (bothFeedsFailed_changes (Changes.loaded failed loaded))
  split
  · split
    · exact marked.trans (failover_changes f)
    · exact Changes.report _ _ _ marked
  · exact marked.trans (failSwitchToward_changes f)

theorem lowPressureEnds_changes (f : Feed) (loaded : s.loading = false) : Changes own ages s (lowPressureEnds f s) := by
  unfold lowPressureEnds
  split
  · exact markFailed_changes f loaded
  · exact .refl

/-- The start-up ends. -/
theorem endStartup_changes (s : State) : Changes own ages s { s with startup := none } := by
  refine .single (.feeds s s.feeds s.activeFeed s.switch none s.bothOpen ?_ id)
  exact fun ⟨active, agree, both, _, loading⟩ => ⟨active, agree, both, fun h => absurd rfl h, loading⟩

theorem startupEnds_changes : Changes own ages s (startupEnds s) := by
  unfold startupEnds
  split
  · rename_i ended
    have present : s.startup ≠ none := by rintro h; simp [h, isOver] at ended
    dsimp only
    split
    · exact endStartup_changes s
    · refine Changes.report _ _ _ (turn_changes (s := s) (w := s.switch) (u := none) (o := s.bothOpen) ?_
        (exchangeInlets_agree s.activeFeed))
      rintro ⟨_, _, _, startup, loading⟩
      obtain ⟨idle, resolved⟩ := startup present
      exact ⟨exchangeInlets_inlet s s.activeFeed, fun w inFlight => absurd (idle.symm.trans inFlight) nofun,
        fun h => absurd (resolved.symm.trans h) nofun, fun h => absurd rfl h, loading⟩
  · exact .refl

/-! ### Judging a head report -/

theorem FeedRecord.judge_fits (p : Params) (pressure : Nat) (x : FeedRecord) :
    (x.judge p pressure).inlet = x.inlet ∧
      (((x.judge p pressure).failed = true → (x.judge p pressure).lowTimer = none) ∧ (x.judge p pressure).proof ≤ 3) := by
  have few : ((x.countProof p pressure).timeLow p pressure).proof ≤ 3 := by
    simp only [FeedRecord.timeLow, FeedRecord.countProof]
    split <;> omega
  unfold FeedRecord.judge
  dsimp only
  split
  · exact ⟨rfl, nofun, few⟩
  · exact ⟨rfl, fun failed => if_pos failed, few⟩

theorem judgeFeeds_changes (s : State) : Changes own ages s (judgeFeeds s) := by
  obtain ⟨inletA, fitsA⟩ := FeedRecord.judge_fits s.params s.head.pressureA (s.feed .a)
  obtain ⟨inletB, fitsB⟩ := FeedRecord.judge_fits s.params s.head.pressureB (s.feed .b)
  have first : Changes own ages s (s.setFeed .a ((s.feed .a).judge s.params s.head.pressureA)) :=
    setFeed_changes inletA fun _ => fitsA
  exact first.trans (setFeed_changes (by simpa using inletB) fun _ => fitsB)

theorem judgeSwitch_changes (before : State) : Changes own ages s (judgeSwitch before s) := by
  unfold judgeSwitch
  split
  · rename_i w inFlight
    split
    · split
      · exact proveSwitch_changes inFlight ‹_›
      · exact .refl
    · split
      · exact dropRecord_changes s
      · exact .refl
  · exact .refl

theorem judgeStartup_changes (before : State) : Changes own ages s (judgeStartup before s) := by
  unfold judgeStartup
  split
  · exact endStartup_changes s
  · exact .refl

theorem reportFailover_bothOpen (f : Feed) (o : Bool) (s : State) :
    { reportFailover f s with bothOpen := o } = reportFailover f { s with bothOpen := o } := by
  simp only [reportFailover, report]
  split <;> rename_i made
  · exact (if_pos made).symm
  · exact (if_neg made).symm

theorem resolveBothOpen_changes : Changes own ages s (resolveBothOpen s) := by
  unfold resolveBothOpen
  split
  swap
  · exact .refl
  rename_i both
  dsimp only
  split
  · refine .single (.feeds s _ s.activeFeed s.switch s.startup false ?_ (FeedsAgree.setInlet _ .closed))
    rintro ⟨active, _, open', startup, loading⟩
    obtain ⟨_, idle⟩ := open' both
    refine ⟨?_, fun w inFlight => absurd (idle.symm.trans inFlight) nofun, nofun, fun h => ⟨idle, rfl⟩,
      fun h => ⟨idle, rfl⟩⟩
    change ((s.setInlet s.activeFeed.other .closed).feed s.activeFeed).inlet = .opened
    rw [State.setInlet_feed, if_neg (Feed.ne_other _)]
    exact active
  split
  · rw [reportFailover_bothOpen]
    refine Changes.report _ _ _ (turn_changes (s := s) (w := s.switch) (u := s.startup) (o := false) ?_
      (FeedsAgree.setInlet s.activeFeed .closed))
    rintro ⟨_, _, open', startup, loading⟩
    obtain ⟨opened, idle⟩ := open' both
    refine ⟨?_, fun w inFlight => absurd (idle.symm.trans inFlight) nofun, nofun, fun h => ⟨idle, rfl⟩,
      fun h => ⟨idle, rfl⟩⟩
    change ((s.setInlet s.activeFeed .closed).feed s.activeFeed.other).inlet = .opened
    rw [State.setInlet_feed, if_neg (Feed.ne_other _).symm]
    exact opened
  · exact .refl

theorem feedJudgement_changes (s : State) : Changes own ages s (feedJudgement s) :=
  (judgeFeeds_changes s).trans ((judgeSwitch_changes s).trans ((judgeStartup_changes s).trans resolveBothOpen_changes))

/-! ### Leases -/

theorem at1_lt (bs : List Byte) (i : Nat) : at1 bs i < 256 := (bs.getD i 0).isLt

theorem at2_lt (bs : List Byte) (i : Nat) : at2 bs i < 65536 := by
  have := at1_lt bs i
  have := at1_lt bs (i + 1)
  unfold at2
  omega

theorem durationSteps_bounds (ms : Nat) : 300 ≤ durationSteps ms ∧ durationSteps ms ≤ 864000 := by
  have low := le_saturate (lo := 30000) (hi := 86400000) (by decide) ms
  have high := saturate_le (lo := 30000) (hi := 86400000) (by decide) ms
  unfold durationSteps
  omega

theorem grantMarks_ordered {duration : Nat} (long : 300 ≤ duration) (given : Option (Nat × Nat)) :
    0 < (grantMarks duration given).1.1 ∧ (grantMarks duration given).1.1 < (grantMarks duration given).1.2 ∧
      (grantMarks duration given).1.2 < duration := by
  have default : 0 < duration / 2 ∧ duration / 2 < duration * 7 / 8 ∧ duration * 7 / 8 < duration := by omega
  unfold grantMarks
  split
  · exact default
  · split
    · assumption
    · exact default

theorem grantedLease_ordered {budget : Nat} (fits : budget < 65536) (ms : Nat) (given : Option (Nat × Nat)) :
    (grantedLease budget ms given).ordered := by
  obtain ⟨long, short⟩ := durationSteps_bounds ms
  obtain ⟨first, second, third⟩ := grantMarks_ordered long given
  refine ⟨long, short, first, second, third, Nat.le_of_lt_succ fits, Nat.zero_lt_succ 99, first⟩

theorem grantBudget_changes (f : Feed) (body : List Byte) : Changes own ages s (grantBudget f body s).2 := by
  refine .single (.lease s f _ ?_)
  rintro l ⟨⟩
  exact grantedLease_ordered (at2_lt body 0) _ _

theorem withdrawBudget_changes (f : Feed) : Changes own ages s (withdrawBudget f s).2 := by
  have ended : Changes own ages s (s.setLease f none) := .single (.lease s f none nofun)
  unfold withdrawBudget
  split
  all_goals
    dsimp only
    split
    · exact Changes.notifyAll _ ended
    · exact ended

theorem leasePhase_changes (f : Feed) (phase : LeasePhase) (s : State) : Changes own True s (leasePhase f phase s) :=
  .single (.leases s trivial _)

theorem makeHandoverTest_changes (f : Feed) (loaded : s.loading = false) : Changes own ages s (makeHandoverTest f s) := by
  have recorded : Change own ages s { s with
      handover := some { feed := f, uptime := s.uptime, result := handoverTest f s } } := .frame s
  unfold makeHandoverTest
  dsimp only
  split
  · rename_i started
    have active : s.activeFeed = f := by
      by_contra other
      simp [handoverTest, other] at started
    refine .head recorded (beginSwitch_changes _ ?_ loaded)
    rw [← active]
  · exact .single recorded

theorem reachT1_changes (f : Feed) : Changes own True s (reachT1 f s) := Changes.notify _ _ (leasePhase_changes f .renewDue s)

theorem reachT2_changes (f : Feed) (loaded : s.loading = false) : Changes own True s (reachT2 f s) := by
  have noticed : Changes own True s _ := Changes.notifyAll .leaseExpiring (leasePhase_changes f .expiring s)
  exact noticed.trans (makeHandoverTest_changes f loaded)

theorem lapse_changes (f : Feed) : Changes own True s (lapse f s) := by
  have lapsed : Changes own True s _ := leasePhase_changes f .lapsed s
  unfold lapse
  dsimp only
  split
  · exact Changes.notifyAll _ (Changes.report _ _ _ lapsed)
  · exact lapsed

theorem takeLeaseMark_changes (f : Feed) (loaded : s.loading = false) : Changes own True s (takeLeaseMark f s) := by
  unfold takeLeaseMark
  split
  · rename_i l _
    split
    · cases l.phase with
      | bound => exact reachT1_changes f
      | renewDue => exact reachT2_changes f loaded
      | expiring => exact lapse_changes f
      | lapsed => exact .refl
    · exact .refl
  · exact .refl

theorem takeLeaseMarks_changes (loaded : s.loading = false) : Changes own True s (takeLeaseMarks s) := by
  have both {t : State} (f g : Feed) (loaded : t.loading = false) :
      Changes own True t (takeLeaseMark g (takeLeaseMark f t)) := by
    have first : Changes own True t (takeLeaseMark f t) := takeLeaseMark_changes f loaded
    exact first.trans (takeLeaseMark_changes g (Changes.loaded first loaded))
  have drawn : Change own True s { s with draws := s.draws + 1 } := .frame s
  unfold takeLeaseMarks
  dsimp only
  split
  · split
    · exact .head drawn (both .a .b loaded)
    · exact .head drawn (both .b .a loaded)
  · exact both .a .b loaded

/-! ### The passing of time -/

theorem Zone.elapse_fits (ms : Nat) {z : Zone} (fits : z.fits) : (z.elapse ms).fits :=
  ⟨fits.1, fun present => fits.2 fun none => present (by simp [Zone.elapse, none])⟩

/-- The feeds, the switch and the start-up as time passes. -/
theorem elapseFeeds_changes (ms limit : Nat) (s : State) : Changes own ages s { s with
    feeds := mapTable (fun _ => FeedRecord.elapse ms limit) s.feeds
    switch := s.switch.map fun w => { w with window := w.window.down ms }
    startup := s.startup.map (Timer.down ms) } := by
  refine .single (.feeds s _ s.activeFeed _ _ s.bothOpen ?_ ?_)
  · rintro ⟨active, agree, both, startup, loading⟩
    have same (f : Feed) : (Vector.get (mapTable (fun _ => FeedRecord.elapse ms limit) s.feeds) f.idx).inlet = (s.feed f).inlet := by
      rw [get_mapTable]; rfl
    refine ⟨(same _).trans active, ?_, fun h => ?_, fun h => ?_, fun h => ?_⟩
    · intro w' inFlight opening
      obtain ⟨w, was, rfl⟩ := Option.map_eq_some_iff.mp inFlight
      obtain ⟨origin, target, opened⟩ := agree w was opening
      exact ⟨origin, target, (same _).trans opened⟩
    · exact ⟨(same _).trans (both h).1, by simp [(both h).2]⟩
    · obtain ⟨idle, resolved⟩ := startup fun none => h (by simp [none])
      exact ⟨by simp [idle], resolved⟩
    · exact ⟨by simp [(loading h).1], (loading h).2⟩
  · intro agree f
    have aged : ({ s with feeds := mapTable (fun _ => FeedRecord.elapse ms limit) s.feeds } : State).feed f =
        (s.feed f).elapse ms limit := get_mapTable ..
    rw [aged]
    exact ⟨fun failed => by simp [FeedRecord.elapse, (agree f).1 failed], (agree f).2⟩

theorem elapseBranches_changes (ms : Nat) (runs : Bool) (s : State) :
    Changes own ages s { s with branches := mapTable (fun _ => Branch.elapse ms runs) s.branches } := by
  refine .single (.branches s _ (fun b => ?_) (.inr fun b => ?_)) <;> rw [get_mapTable]
  · exact .elapse _ ms runs
  · exact id

theorem passTime_changes (s : State) (ms : Nat) : Changes own True s (s.passTime ms) := by
  let s₁ : State := { s with clock := s.clock + ms, freeze := s.freeze.map fun f =>
    { f with age := f.age.upTo ms s.params.freezeLimit } }
  let s₂ : State := { s₁ with branches := mapTable (fun _ => Branch.elapse ms (s.mode != .hold)) s.branches }
  let s₃ : State := { s₂ with leases := mapTable (fun _ l => l.map (Lease.elapse ms)) s.leases }
  let s₄ : State := { s₃ with
    feeds := mapTable (fun _ => FeedRecord.elapse ms s.params.failoverWindow) s.feeds
    switch := s.switch.map fun w => { w with window := w.window.down ms }
    startup := s.startup.map (Timer.down ms) }
  let s₅ : State := { s₄ with zones := mapTable (fun _ => Zone.elapse ms) s.zones }
  let s₆ : State := { s₅ with park := s.park.map fun p => { p with window := p.window.down ms } }
  have zones : Change own True s₄ s₅ := by
    refine .zones s₄ _ fun z fits => ?_
    rw [get_mapTable]
    exact Zone.elapse_fits ms fits
  have park : Change own True s₅ s₆ := by
    refine .modes s₅ s.mode s.faultHold _ (fun ⟨safe, count, parked⟩ => ⟨safe, count, ?_⟩) id
    rw [Option.isSome_map]
    exact parked
  have retry : Change own True s₆ (s.passTime ms) := .store s₆ _ id
  exact .head (.frame s) (.trans (elapseBranches_changes ms _ s₁) (.head (.leases s₂ trivial _)
    (.trans (elapseFeeds_changes ms _ s₃) (.head zones (.head park (.single retry))))))

theorem elapse_changes (s : State) (ms : Nat) :
    Changes own True s (s.elapseBefore ms) ∧ Changes own True s (s.elapse ms) := by
  cases runs : s.running
  · have moved : Changes own True s { s with clock := s.clock + ms } := .single (.frame s)
    rw [State.elapse_stopped runs, show s.elapseBefore ms = { s with clock := s.clock + ms } by
      simp [State.elapseBefore, runs]]
    exact ⟨moved, moved⟩
  · have loaded : s.loading = false := by
      simp only [State.running, Bool.and_eq_true, Bool.not_eq_true'] at runs
      exact runs.1
    have both := State.elapse_induction (P := fun t => Changes own True s t) (fun t n h => h.tail (.frame t))
      (fun t ms h => h.trans (passTime_changes t ms))
      (fun t h => h.trans (takeLeaseMarks_changes (Changes.loaded h loaded))) ms .refl
    exact both

end

/-! ### The leases as time passes (R105) -/

/-- A lease in order has not reached its mark. -/
theorem Lease.afterMark_of_ordered {l : Lease} (h : l.ordered) : l.afterMark = l := by
  have waits : l.markReached = false := by
    obtain ⟨-, -, -, -, -, -, -, age⟩ := h
    cases phase : l.phase <;> simp_all [Lease.markReached, Lease.mark]
  simp [Lease.afterMark, waits]

/-- Every lease is in order once the mark it may have reached is taken. -/
def LeasesAtMarks (s : State) : Prop := ∀ f, ∀ l ∈ s.lease f, l.afterMark.ordered

theorem LeasesAtMarks.taken {s : State} (h : LeasesAtMarks s) : LeasesOrdered (takeLeaseMarks s) := by
  intro f l' present
  rw [takeLeaseMarks_lease] at present
  obtain ⟨l, was, rfl⟩ := Option.map_eq_some_iff.mp present
  exact h f l was

theorem LeasesOrdered.atMarks {s : State} (h : LeasesOrdered s) : LeasesAtMarks s := by
  intro f l present
  rw [Lease.afterMark_of_ordered (h f l present)]
  exact h f l present

/-- No lease reaches its next mark before the next mark of either. -/
theorem nextLeaseMark_le {s : State} {f : Feed} {l : Lease} {d : Nat} (present : s.lease f = some l)
    (mark : l.untilMark = some d) : ∃ e ≤ d, nextLeaseMark s = some e := by
  have here : (s.lease f).bind Lease.untilMark = some d := by rw [present]; exact mark
  unfold nextLeaseMark
  cases f with
  | a =>
    rw [here]
    split
    · rename_i x y hx _; cases hx; exact ⟨_, Nat.min_le_left .., rfl⟩
    · rename_i x hx _; cases hx; exact ⟨_, le_rfl, rfl⟩
    · rename_i hx; cases hx
  | b =>
    rw [here]
    split
    · rename_i x y _ hy; cases hy; exact ⟨_, Nat.min_le_right .., rfl⟩
    · rename_i hy; cases hy
    · exact ⟨_, le_rfl, rfl⟩

theorem LeasesOrdered.passTime {s : State} {ms : Nat} (h : LeasesOrdered s)
    (before : ∀ d, nextLeaseMark s = some d → ms ≤ d) : LeasesAtMarks (s.passTime ms) := by
  intro f l' present
  rw [State.passTime_lease] at present
  obtain ⟨l, was, rfl⟩ := Option.map_eq_some_iff.mp present
  refine Lease.ordered_elapse (h f l was) fun d mark => ?_
  obtain ⟨e, le, next⟩ := nextLeaseMark_le was mark
  exact (before e next).trans le

theorem LeasesOrdered.passing {n : Nat} : ∀ {s : State} {ms : Nat}, LeasesOrdered s → marksLeft s ≤ n →
    LeasesAtMarks (passing n ms s) := by
  induction n with
  | zero =>
    intro s ms h few
    exact h.passTime fun d next => by simp [nextLeaseMark_none s (by omega)] at next
  | succ n ih =>
    intro s ms h few
    unfold Machine.passing
    split
    · rename_i d next
      split
      · have reached : LeasesAtMarks (s.passTime d) := h.passTime fun e same => by
          rw [next] at same; cases same; exact le_rfl
        exact ih reached.taken (by have := marksLeft_lt s d next; omega)
      · exact h.passTime fun e same => by rw [next] at same; cases same; omega
    · rename_i none
      exact h.passTime fun d next => by rw [none] at next; cases next

theorem marksLeft_le (s : State) : marksLeft s ≤ 6 := by
  have one (l : Option Lease) : Lease.marksLeft l ≤ 3 := by
    unfold Lease.marksLeft
    split
    · omega
    · split <;> omega
  have := one (s.lease .a)
  have := one (s.lease .b)
  unfold marksLeft
  omega

theorem LeasesOrdered.elapseBefore {s : State} (h : LeasesOrdered s) (ms : Nat) : LeasesAtMarks (s.elapseBefore ms) := by
  unfold State.elapseBefore
  split
  · exact h.passing (marksLeft_le s)
  · exact LeasesOrdered.atMarks (s := s) h

theorem LeasesOrdered.elapse {s : State} (h : LeasesOrdered s) (ms : Nat) : LeasesOrdered (s.elapse ms) := by
  unfold State.elapse
  split
  · exact (h.elapseBefore ms).taken
  · rename_i stopped
    rw [State.elapseBefore, if_neg stopped]
    exact h

/-- A mark taken by its own command leaves nothing for the passing of time to take of it. -/
theorem LeasesAtMarks.reached {s t : State} (h : LeasesAtMarks s)
    (moved : ∀ f, t.lease f = s.lease f ∨ t.lease f = (s.lease f).map Lease.afterMark) : LeasesAtMarks t := by
  intro f l' present
  rcases moved f with same | marked
  · exact h f l' (same ▸ present)
  · rw [marked] at present
    obtain ⟨l, was, rfl⟩ := Option.map_eq_some_iff.mp present
    rw [Lease.afterMark_of_ordered (h f l was)]
    exact h f l was

end Sys2Proof.Machine

/-! ## Every operation is a run of changes: cycles, drips, reports, tuning and the store -/

namespace Sys2Proof.Machine

open Sys2Proof

section

variable {own : Port → Prop} {ages : Prop} {s t : State}

/-! ### Cycles and the freeze -/

theorem toldByCycle_told (s : State) : Told s (toldByCycle s) := by
  have each (w : State) (b : BranchId) : Told w (tellHot s w b) := by
    unfold tellHot
    split
    · exact Told.report ..
    · exact .refl w
  have breach (w : State) : Told w (reportBreach ((budgetInForce s).map (availableBudget s)) (sharesOf s) (cycleFit s) w) := by
    unfold reportBreach
    split
    · exact Told.report ..
    · exact .refl w
  exact (Told.foldl each _ s).trans (breach _)

/-- What is told depends on the Incident List and the ports alone. -/
theorem Told.congr {s' t' : State} (h : Told s t) (incidents : s'.incidents = s.incidents) (ports : s'.ports = s.ports)
    (incidents' : t'.incidents = t.incidents) (ports' : t'.ports = t.ports) : Told s' t' := by
  refine ⟨fun fits => ?_, fun p => ?_⟩
  · have := h.fits (by unfold IncidentsFit at fits ⊢; rwa [incidents] at fits)
    unfold IncidentsFit at this ⊢
    rwa [incidents']
  · have := h.flags p
    unfold State.port at this ⊢
    rwa [ports, ports']

theorem allotmentCycle_told (s : State) : Told s (allotmentCycle s) := by
  by_cases computes : s.mode.computes = true
  · rw [show allotmentCycle s = compute (swapPlan s) from if_pos computes, compute_eq]
    exact (toldByCycle_told (swapPlan s)).congr (by rw [swapPlan_eq]) (by rw [swapPlan_eq]) rfl rfl
  · rw [show allotmentCycle s = swapPlan s from if_neg computes]
    exact (Told.refl s).congr rfl rfl (by rw [swapPlan_eq]) (by rw [swapPlan_eq])

theorem allotmentCycle_changes (s : State) : Changes own ages s (allotmentCycle s) := by
  let s₁ : State := { s with planActive := (allotmentCycle s).planActive, branches := (allotmentCycle s).branches }
  let s₂ : State := { s₁ with summary := (allotmentCycle s).summary }
  have told : Changes own ages s₂ { s₂ with incidents := (allotmentCycle s).incidents, ports := (allotmentCycle s).ports } :=
    Told.change ((allotmentCycle_told s).congr rfl rfl rfl rfl)
  have plan : (allotmentCycle s).planActive = if s.freeze = none then s.planPending else s.planActive := by
    rw [allotmentCycle_frame]
  rw [allotmentCycle_frame, ← plan]
  exact .head (.cycle s) (.head (.frame s₁) told)

theorem startCycle_changes (s : State) : Changes own ages s (startCycle s) := .head (.frame s) (allotmentCycle_changes _)

theorem lockedMark_changes (i : Nat) (s : State) : Changes own ages s (lockedMark i s) :=
  .head (.frame s) (startCycle_changes _)

theorem loseLock_changes (reference : Option Nat) (s : State) : Changes own ages s (loseLock reference s) :=
  Changes.notifyAll _ (.single (.frame s))

theorem takeMark_changes : Changes own ages s (takeMark s) := by
  unfold takeMark
  split
  · split
    · exact lockedMark_changes _ s
    · exact .single (.frame s)
  · exact .single (.frame s)
  · exact lockedMark_changes _ s
  · exact loseLock_changes _ s

theorem freezePlan_changes (h : Holder) : Changes own ages s (freezePlan h s).2 := by
  unfold freezePlan
  split
  · split
    · exact .single (.frame s)
    · exact .refl
  · exact .single (.frame s)

theorem thawPlan_changes (h : Holder) : Changes own ages s (thawPlan h s).2 := by
  unfold thawPlan
  split
  · split
    · exact .single (.frame s)
    · exact .refl
  · exact .refl

theorem freezeEnds_changes : Changes own ages s (freezeEnds s) := by
  unfold freezeEnds
  split
  · split
    · exact Changes.notify _ _ (.single (.frame s))
    · exact .refl
  · exact .refl

/-! ### Drips and zones -/

theorem setDrip_changes {b : BranchId} {x : Accumulator} (few : x.amount ≤ 4 * s.params.dripThreshold)
    (loaded : s.loading = false) : Changes own ages s (s.setDrip b x) := by
  refine .single (.drips s _ fun ⟨bounded, _⟩ => ⟨fun c => ?_, fun loading => absurd (loaded.symm.trans loading) nofun⟩)
  change ((s.setDrip b x).drip c).amount ≤ _
  rw [State.setDrip_drip]
  split
  · exact few
  · exact bounded c

theorem enterJudged_changes {b : BranchId} {x : Accumulator} (before : SuspectLevel)
    (few : x.amount ≤ 4 * s.params.dripThreshold) (loaded : s.loading = false) :
    Changes own ages s (enterJudged b before x s) := by
  unfold enterJudged
  split
  · exact Changes.report _ _ _ (setDrip_changes few loaded)
  · exact setDrip_changes few loaded

theorem accumulate_le (p : Params) (imbalance : Int) (amount : Nat) : accumulate p imbalance amount ≤ 4 * p.dripThreshold := by
  unfold accumulate
  split <;> exact Nat.min_le_right ..

theorem dripUpdate_changes (b : BranchId) (loaded : s.loading = false) : Changes own ages s (dripUpdate s b) := by
  unfold dripUpdate
  split
  · exact enterJudged_changes _ (accumulate_le ..) loaded
  · exact .refl

/-- One zone record written, in bounds where the one before was. -/
theorem setZone_changes {z : SegId} {x : Zone} (fits : (s.zone z).fits → x.fits) : Changes own ages s (s.setZone z x) := by
  refine .single (.zones s _ fun c => ?_)
  rw [get_put]
  split
  · rename_i same; subst same; exact fits
  · exact id

theorem stopConfirm_changes (z : SegId) (s : State) : Changes own ages s (stopConfirm z s) :=
  setZone_changes fun fits => ⟨fits.1, fun present => absurd rfl present⟩

/-- A report's level leaves the zone in its state, with a rise that has reached 3 or a dry count that has reached 20 still to
be acted on, and a timer only in WET. -/
theorem Zone.count_fits {z : Zone} (level : ZoneLevel) (fits : z.fits) :
    (z.count level).state = z.state ∧ (z.count level).confirm = z.confirm ∧
      (z.state = .dry → (z.count level).rise ≤ 3 ∧ (z.count level).dry = 0) ∧
      (z.state = .wet → (z.count level).rise = 0 ∧ (z.count level).dry ≤ 20) := by
  obtain ⟨counts, -⟩ := fits
  cases st : z.state <;> rw [st] at counts <;> cases level <;> simp [Zone.count, st] <;> omega

theorem zoneIntake_changes (z : SegId) (level : ZoneLevel) (s : State) : Changes own ages s (zoneIntake z level s) := by
  have timer (fits : (s.zone z).fits) (other : ((s.zone z).count level).state ≠ .wet) :
      ((s.zone z).count level).confirm = none := by
    obtain ⟨state, confirm, -⟩ := Zone.count_fits level fits
    by_contra present
    exact other (state.trans (fits.2 (confirm ▸ present)))
  unfold zoneIntake
  dsimp only
  split
  · rename_i dry
    split
    · exact Changes.report _ _ _ (setZone_changes fun fits =>
        ⟨⟨Nat.zero_le _, Nat.zero_le _⟩, fun present => absurd (timer fits (by simp [dry])) present⟩)
    · rename_i few
      refine setZone_changes fun fits => ⟨?_, fun present => absurd (timer fits (by simp [dry])) present⟩
      obtain ⟨state, -, counts, -⟩ := Zone.count_fits level fits
      obtain ⟨_, none⟩ := counts (state ▸ dry)
      rw [dry]
      exact ⟨by omega, none⟩
  · rename_i damp
    split
    · exact Changes.report _ _ _ (setZone_changes fun fits => ⟨⟨rfl, Nat.zero_le _⟩, fun _ => rfl⟩)
    rename_i few
    split
    · exact setZone_changes fun fits =>
        ⟨⟨Nat.zero_le _, rfl⟩, fun present => absurd (timer fits (by simp [damp])) present⟩
    · refine setZone_changes fun fits => ⟨?_, fun present => absurd (timer fits (by simp [damp])) present⟩
      rw [damp]
      exact ⟨by omega, by omega⟩
  · rename_i wet
    refine setZone_changes fun fits => ⟨?_, fun _ => wet⟩
    obtain ⟨state, -, -, counts⟩ := Zone.count_fits level fits
    rw [wet]
    exact counts (state ▸ wet)

theorem confirmEvaluate_changes {z : SegId} (wet : (s.zone z).state = .wet) : Changes own ages s (confirmEvaluate z s) := by
  unfold confirmEvaluate
  split
  · exact stopConfirm_changes z s
  split
  · exact setZone_changes fun fits => ⟨fits.1, fun _ => wet⟩
  · exact .refl

theorem decision_changes (z : SegId) (s : State) : Changes own ages s (decision z s) := by
  unfold decision
  split
  · exact isolateAll_changes ..
  · exact isolateAll_changes ..
  · rename_i wet
    split
    · exact confirmEvaluate_changes wet
    · exact (stopConfirm_changes z s).trans (isolateAll_changes ..)

theorem dripStep_changes (z : SegId) (level : ZoneLevel) (loaded : s.loading = false) :
    Changes own ages s (dripStep z level s) :=
  (Changes.foldl_loaded (fun _ b => dripUpdate_changes b) (zoneBranches z) loaded).trans
    ((zoneIntake_changes z level _).trans (decision_changes z _))

theorem confirmEnds_changes (z : SegId) (s : State) : Changes own ages s (confirmEnds z s) := by
  have stopped : Changes own ages s (stopConfirm z s) := stopConfirm_changes z s
  unfold confirmEnds
  dsimp only
  split
  · split
    · exact stopped
    split
    · exact Changes.report _ _ _ (stopped.trans (isolateAll_changes ..))
    · exact Changes.report _ _ _ stopped
  · exact stopped.trans (decision_changes z _)

theorem stopConfirm_setZone (z : SegId) (x : Zone) (s : State) :
    stopConfirm z (s.setZone z x) = s.setZone z { x with confirm := none } := by
  unfold stopConfirm
  rw [State.setZone_zone, if_pos rfl]
  exact congrArg (fun v => { s with zones := v }) (put_put ..)

theorem clearZone_changes (z : SegId) : Changes own ages s (clearZone z s).2 := by
  unfold clearZone
  split
  · exact .refl
  · exact .refl
  split
  · dsimp only
    rw [stopConfirm_setZone]
    exact setZone_changes fun _ => ⟨⟨Nat.zero_le _, rfl⟩, fun present => absurd rfl present⟩
  · exact .refl

theorem setZonePolicy_changes (code : Nat) (z : SegId) : Changes own ages s (setZonePolicy code z s).2 := by
  unfold setZonePolicy
  split
  · exact setZone_changes id
  · exact .refl

end

end Sys2Proof.Machine

/-! ## Every operation is a run of changes: the field, the store and the parameters -/

namespace Sys2Proof.Machine

open Sys2Proof

section

variable {own : Port → Prop} {ages : Prop} {s t : State}

/-! ### Exchanges and reports -/

theorem startExchange_changes (m : ModuleId) (s : State) : Changes own ages s (startExchange m s) := .single (.frame s)

theorem startRound_changes (s : State) : Changes own ages s (startRound s) :=
  .head (.frame s) (startExchange_changes 0 _)

theorem nextExchange_changes : Changes own ages s (nextExchange s) := by
  unfold nextExchange
  split
  · split
    · exact startExchange_changes _ s
    · exact .refl
  · exact .refl

theorem endExchange_changes (s : State) : Changes own ages s (endExchange s) := .single (.frame s)

theorem afterMiss_fits (link : LinkState) (misses : Nat) :
    linkFits (afterMiss link misses).1 (afterMiss link misses).2 := by
  unfold afterMiss
  split
  · rfl
  · rename_i few
    change misses + 1 ≤ 2
    omega

/-- One segment record written, with a link state that fits its misses. -/
theorem setSegment_changes {z : SegId} {x : SegmentRecord}
    (fits : linkFits (s.segment z).link (s.segment z).misses → linkFits x.link x.misses) :
    Changes own ages s (s.setSegment z x) := by
  refine .single (.field s s.measured _ s.head id fun ⟨segments, head⟩ => ⟨fun c => ?_, head⟩)
  change linkFits ((s.setSegment z x).segment c).link ((s.setSegment z x).segment c).misses
  rw [State.setSegment_segment]
  split
  · exact fits (segments z)
  · exact segments c

theorem setMeasure_changes (b : BranchId) (r : PositionReport) (s : State) :
    Changes own ages s (s.setMeasure b (entered r)) := by
  refine .single (.field s _ s.segments s.head (fun ⟨branches, head⟩ => ⟨fun c => ?_, head⟩) id)
  change ((s.setMeasure b (entered r)).measure c).supplyFlow ≤ 3000 ∧ ((s.setMeasure b (entered r)).measure c).returnFlow ≤ 3000 ∧
    (∀ t ∈ ((s.setMeasure b (entered r)).measure c).temperature, t ≤ 1000) ∧
    ((s.setMeasure b (entered r)).measure c).supplyFeedback ≤ 1000
  rw [State.setMeasure_measure]
  split
  · refine ⟨saturate_le (by decide) _, saturate_le (by decide) _, ?_, saturate_le (by decide) _⟩
    intro t present
    obtain ⟨x, -, rfl⟩ := Option.map_eq_some_iff.mp present
    exact saturate_le (by decide) x
  · exact branches c

theorem pause_changes (z : SegId) (s : State) : Changes own ages s (s.setZone z (s.zone z).pause) :=
  setZone_changes fun fits => ⟨fits.1, fun present => fits.2 fun none => present (by simp [Zone.pause, none])⟩

theorem resume_changes (z : SegId) (s : State) : Changes own ages s (s.setZone z (s.zone z).resume) :=
  setZone_changes fun fits => ⟨fits.1, fun present => fits.2 fun none => present (by simp [Zone.resume, none])⟩

theorem missSegment_changes (z : SegId) (s : State) : Changes own ages s (missSegment z s) := by
  have missed : Changes own ages s (s.setSegment z { s.segment z with
      link := (afterMiss (s.segment z).link (s.segment z).misses).1
      misses := (afterMiss (s.segment z).link (s.segment z).misses).2 }) := setSegment_changes fun _ => afterMiss_fits _ _
  unfold missSegment
  dsimp only
  split
  · exact Changes.report _ _ _ (missed.trans (pause_changes z _))
  · exact missed

/-- A low-pressure timer stops. -/
theorem stopLowTimer_changes (f : Feed) (s : State) :
    Changes own ages s (s.setFeed f { s.feed f with lowTimer := none }) :=
  setFeed_changes rfl fun few => ⟨fun _ => rfl, few⟩

theorem headLost_changes (s : State) : Changes own ages s (headLost s) :=
  Changes.report _ _ _ ((stopLowTimer_changes .a s).trans (stopLowTimer_changes .b _))

theorem missHead_changes (s : State) : Changes own ages s (missHead s) := by
  have missed : Changes own ages s { s with head := { s.head with
      link := (afterMiss s.head.link s.head.misses).1, misses := (afterMiss s.head.link s.head.misses).2 } } :=
    .single (.field s s.measured s.segments _ id fun ⟨segments, _⟩ => ⟨segments, afterMiss_fits _ _⟩)
  unfold missHead
  dsimp only
  split
  · exact missed.trans (headLost_changes _)
  · exact missed

theorem missExchange_changes : Changes own ages s (missExchange s) := by
  unfold missExchange
  split
  · refine (endExchange_changes s).trans ?_
    unfold missModule
    split
    · exact missSegment_changes _ _
    · exact missHead_changes _
  · exact .refl

theorem enterSegment_changes (z : SegId) (r : SegmentReport) (s : State) : Changes own ages s (enterSegment z r s) :=
  (setMeasure_changes _ r.first s).trans ((setMeasure_changes _ r.second _).trans ((setMeasure_changes _ r.third _).trans
    ((setSegment_changes (x := { link := .online, misses := 0, lastLevel := r.level }) fun _ => rfl).trans
      (resume_changes z _))))

theorem primingJudgement_changes {b : BranchId} (st : (s.branch b).state = .priming) :
    Changes own ages s (primingJudgement b s) := by
  unfold primingJudgement
  dsimp only
  split
  · split
    · exact Branch.Move.enter (.flow st) (.inr fun _ => by rw [st]; rfl)
    · exact Branch.Move.change (.proof _ st (by omega)) (.inr id)
  · exact Branch.Move.change (.proof _ st (Nat.zero_le _)) (.inr id)

theorem judgeBranch_changes (b : BranchId) (s : State) : Changes own ages s (judgeBranch s b) := by
  unfold judgeBranch
  split
  · exact primingJudgement_changes ‹_›
  · exact isolationProgress_changes ‹_›
  · exact .refl

theorem handleSegment_changes (z : SegId) (r : SegmentReport) (loaded : s.loading = false) :
    Changes own ages s (handleSegment z r s) := by
  have judged : Changes own ages s ((zoneBranches z).foldl judgeBranch (enterSegment z r s)) :=
    Changes.foldl (fun t b => judgeBranch_changes b t) _ (enterSegment_changes z r s)
  have dripped : Changes own ages s _ := judged.trans (dripStep_changes z r.level (Changes.loaded judged loaded))
  exact dripped.trans (parkTest_changes z (Changes.loaded dripped loaded))

theorem takeSegment_changes (z : SegId) (r : SegmentReport) (loaded : s.loading = false) :
    Changes own ages s (takeSegment z r s) := by
  unfold takeSegment
  split
  · split
    · exact (endExchange_changes s).trans (handleSegment_changes z r loaded)
    · exact missExchange_changes
  · exact .refl

theorem enterHead_changes (r : HeadReport) (s : State) : Changes own ages s (enterHead r s) := by
  refine .single (.field s s.measured s.segments _ (fun ⟨branches, _⟩ => ⟨branches, ?_, ?_⟩)
    fun ⟨segments, _⟩ => ⟨segments, rfl⟩)
  exacts [saturate_le (by decide) _, saturate_le (by decide) _]

theorem takeHead_changes (r : HeadReport) : Changes own ages s (takeHead r s) := by
  unfold takeHead
  split
  · split
    · exact (endExchange_changes s).trans ((enterHead_changes r _).trans (feedJudgement_changes _))
    · exact missExchange_changes
  · exact .refl

/-! ### The EEPROM and the store -/

/-- A write of one byte leaves every other address as it reads, in canonical form or not. -/
theorem readByte_writeByte_other (mem : List Host.Cell) {x y : Nat} (v : Byte) (other : y ≠ x) :
    readByte (writeByte mem x v) y = readByte mem y := by
  induction mem with
  | nil =>
    unfold writeByte
    split
    · rfl
    · exact if_neg other.symm
  | cons c rest ih =>
    obtain ⟨a, w⟩ := c
    unfold writeByte
    split
    · split
      · rfl
      · exact if_neg other.symm
    split
    · rename_i same
      subst same
      have passed : readByte ((x, w) :: rest) y = readByte rest y := if_neg other.symm
      split
      · exact passed.symm
      · exact (if_neg other.symm).trans passed.symm
    · simp only [readByte, ih]

theorem readByte_writeBytes_other (bs : List Byte) {x : Nat} : ∀ (mem : List Host.Cell) (base : Nat),
    x < base ∨ base + bs.length ≤ x → readByte (writeBytes mem base bs) x = readByte mem x := by
  induction bs with
  | nil => exact fun _ _ _ => rfl
  | cons v bs ih =>
    intro mem base outside
    rw [List.length_cons] at outside
    unfold writeBytes
    rw [ih _ _ (by omega), readByte_writeByte_other _ _ (by omega)]

/-- Bytes written inside one of the two areas. -/
theorem writeBytes_changes {base : Nat} {bs : List Byte}
    (inside : StoreFits s → base + bs.length ≤ 622 ∨ (0x1000 ≤ base ∧ base + bs.length ≤ 0x1060)) :
    Changes own ages s { s with eeprom := writeBytes s.eeprom base bs } := by
  refine .single (.eeprom s _ (fun fits wf => ?_) fun fits a outside => ?_)
  · refine writeBytes_wf bs _ _ ?_ wf
    rcases inside fits with image | ⟨_, marks⟩
    · exact image.trans (by decide)
    · exact marks.trans (by decide)
  · refine readByte_writeBytes_other bs _ _ ?_
    have := inside fits
    unfold inAreas at outside
    omega

theorem length_signed4 (z : Int) : (signed4 z).length = 4 := rfl

theorem length_entryBytes (b : BranchId) (e : MapEntry) : (entryBytes b e).length = 10 := by
  unfold entryBytes
  rfl

/-- Fields of one length stand one after another. -/
theorem length_flatMap_const {α : Type} (xs : List α) {f : α → List Byte} {k : Nat} (each : ∀ x, (f x).length = k) :
    (xs.flatMap f).length = xs.length * k := by
  simp [List.length_flatMap, each]

theorem length_imageBody (s : State) : (imageBody s).length = 620 := by
  unfold imageBody
  simp only [List.length_append, length_flatMap_const _ (fun n => length_signed4 (s.params.value n)),
    length_flatMap_const _ (fun b => length_entryBytes b (s.entry b)),
    length_flatMap_const _ (fun z => show (byte1 (s.zone z).policy.code).length = 1 from rfl), length_byte2]
  rfl

theorem length_imageOf (s : State) : (imageOf s).length = 622 := by
  unfold imageOf
  rw [List.length_append, length_imageBody, length_byte2]

theorem length_pageOf_le {image : List Byte} {page : Nat} (length : image.length = 622) (few : page < 20) :
    page * 32 + (pageOf image page).length ≤ 622 := by
  simp only [pageOf, Config.pageBytes, List.length_take, List.length_drop, length]
  omega

/-- The Store Controller's own state written, with what becomes of the stored image. -/
theorem setStore_changes {x : Store} (torn : Bool) (fits : StoreFits s → StoreFits { s with store := x }) :
    Changes own ages s { s with store := x, imageTorn := torn } :=
  .tail (.single (.store s x fits)) (.frame { s with store := x })

theorem saveConfig_changes : Changes own ages s (saveConfig s).2 := by
  unfold saveConfig
  split
  · exact .refl
  refine .single (.store s _ fun ⟨_, queue, write⟩ => ⟨?_, queue, write⟩)
  rintro v ⟨⟩
  exact ⟨show 0 < 20 by decide, length_imageOf s⟩

theorem pageWriteEnds_changes (acknowledged : Bool) : Changes own ages s (pageWriteEnds acknowledged s) := by
  unfold pageWriteEnds
  split
  swap
  · exact .refl
  rename_i v saving _
  split
  · have written : Changes own ages s { s with
        eeprom := writeBytes s.eeprom (Config.imageBase + v.page * Config.pageBytes) (pageOf v.image v.page) } := by
      refine writeBytes_changes fun ⟨save, _⟩ => .inl ?_
      obtain ⟨page, length⟩ := save v saving
      have bound := length_pageOf_le length page
      simpa [Config.imageBase, Config.pageBytes] using bound
    refine written.trans (setStore_changes _ fun ⟨save, queue, write⟩ => ⟨?_, queue, write⟩)
    intro v' next
    dsimp only at next
    split at next
    · rename_i more
      cases next
      exact ⟨more, (save v saving).2⟩
    · cases next
  split
  · refine .single (.store s _ fun ⟨save, queue, write⟩ => ⟨?_, queue, write⟩)
    rintro v' ⟨⟩
    exact save v saving
  · exact Changes.report _ _ _ (setStore_changes true fun ⟨_, queue, write⟩ => ⟨fun _ none => (nomatch none), queue, write⟩)

theorem startMarkWrite_changes : Changes own ages s (startMarkWrite s) := by
  unfold startMarkWrite
  split
  · rename_i e rest _ _ _ head
    refine .single (.store s _ fun ⟨save, queue, _⟩ => ⟨save, queue, ?_⟩)
    rintro w ⟨⟩
    exact ⟨e, by simp [head], rfl, fun _ => rfl⟩
  · exact .refl

theorem markWriteEnds_changes (acknowledged : Bool) : Changes own ages s (markWriteEnds acknowledged s) := by
  unfold markWriteEnds
  split
  swap
  · exact .refl
  rename_i w writing
  split
  · have written : Changes own ages s { s with
        eeprom := writeBytes s.eeprom (Config.marksBase + 2 * w.branch.val) (markBytes w.value) } := by
      refine writeBytes_changes fun _ => .inr ?_
      have length : (markBytes w.value).length = 2 := by unfold markBytes; split <;> rfl
      have := w.branch.isLt
      unfold Config.marksBase
      omega
    refine written.tail (.store _ _ fun ⟨save, queue, _⟩ => ⟨save, ?_, nofun⟩)
    dsimp only [queueAfterWrite]
    split
    · exact queue
    · rw [List.map_tail]; exact queue.tail
  split
  · refine .single (.store s _ fun ⟨save, queue, write⟩ => ⟨save, queue, ?_⟩)
    rintro w' ⟨⟩
    exact write w writing
  · exact Changes.report _ _ _ (.single (.store s _ fun ⟨save, queue, _⟩ => ⟨save, queue, nofun⟩))

theorem markRetryEnds_changes : Changes own ages s (markRetryEnds s) := by
  unfold markRetryEnds
  split
  · exact .head (.store s { s.store with retry := none } id) startMarkWrite_changes
  · exact .refl

end

/-! ### The parameters -/

section

variable {p q : Params} {n : Nat} {v : Int} {clamped : Bool}

theorem numeric_eq {lo hi : Nat} {set : Nat → Params} (range : lo ≤ hi) (h : numeric lo hi v set = some (q, clamped)) :
    ∃ x, lo ≤ x ∧ x ≤ hi ∧ q = set x := by
  obtain ⟨rfl, -⟩ := Prod.mk.inj (Option.some.inj h)
  exact ⟨_, le_saturate range v, saturate_le range v, rfl⟩

theorem choice_eq {α : Type} {codes : Nat → Option α} {set : α → Params} (h : choice v codes set = some (q, clamped)) :
    ∃ x, q = set x := by
  unfold choice at h
  split at h
  · cases h
  · obtain ⟨x, -, same⟩ := Option.map_eq_some_iff.mp h
    obtain ⟨rfl, -⟩ := Prod.mk.inj same
    exact ⟨x, rfl⟩

/-- A FAIL_PRESSURE written stays below the PROOF_PRESSURE in force (R134). -/
theorem writeFailPressure_eq (proof : 50 ≤ p.proofPressure ∧ p.proofPressure ≤ 600)
    (h : p.writeFailPressure v = some (q, clamped)) :
    ∃ x, (20 ≤ x ∧ x ≤ 500 ∧ x < p.proofPressure) ∧ q = { p with failPressure := x } := by
  have low := le_saturate (lo := 20) (hi := 500) (by decide) v
  have high := saturate_le (lo := 20) (hi := 500) (by decide) v
  unfold Params.writeFailPressure at h
  dsimp only at h
  split at h
  · obtain ⟨rfl, -⟩ := Prod.mk.inj (Option.some.inj h)
    exact ⟨_, by omega, rfl⟩
  · obtain ⟨rfl, -⟩ := Prod.mk.inj (Option.some.inj h)
    exact ⟨_, by omega, rfl⟩

theorem Params.inRange.proofPressure (range : p.inRange) : 50 ≤ p.proofPressure ∧ p.proofPressure ≤ 600 := by
  unfold Params.inRange at range
  omega

/-- A written parameter keeps every parameter in its range (R186). -/
theorem Params.write_inRange (h : p.write n v = some (q, clamped)) (range : p.inRange) : q.inRange := by
  unfold Params.write at h
  split at h
  case h_7 =>
    obtain ⟨x, low, high, rfl⟩ := numeric_eq (by decide) h
    have period : 100 ≤ x / 10 * 10 ∧ x / 10 * 10 ≤ 2000 ∧ x / 10 * 10 % 10 = 0 := by omega
    simp_all [Params.inRange]
  case h_18 =>
    obtain ⟨x, low, high, rfl⟩ := numeric_eq (by decide) h
    have fail : 20 ≤ (if x ≤ p.failPressure then x - 10 else p.failPressure) ∧
        (if x ≤ p.failPressure then x - 10 else p.failPressure) ≤ 500 ∧
        (if x ≤ p.failPressure then x - 10 else p.failPressure) < x := by
      unfold Params.inRange at range
      split <;> omega
    simp_all [Params.inRange, Params.setProofPressure]
  case h_19 =>
    obtain ⟨x, below, rfl⟩ := writeFailPressure_eq range.proofPressure h
    simp_all [Params.inRange]
  case h_6 | h_11 | h_17 | h_22 | h_23 =>
    obtain ⟨x, rfl⟩ := choice_eq h
    exact range
  case h_31 => cases h
  all_goals
    obtain ⟨x, low, high, rfl⟩ := numeric_eq (by decide) h
    simp_all [Params.inRange]

/-- Only a DRIP_THRESHOLD written changes the DRIP_THRESHOLD (R186). -/
theorem Params.write_dripThreshold (h : p.write n v = some (q, clamped)) (other : n ≠ 25) :
    q.dripThreshold = p.dripThreshold := by
  unfold Params.write at h
  split at h
  case h_19 =>
    unfold Params.writeFailPressure at h
    dsimp only at h
    split at h <;> cases h <;> rfl
  case h_25 => exact absurd rfl other
  case h_31 => cases h
  case h_6 | h_11 | h_17 | h_22 | h_23 =>
    obtain ⟨x, rfl⟩ := choice_eq h
    rfl
  all_goals
    obtain ⟨x, -, -, rfl⟩ := numeric_eq (by decide) h
    rfl

theorem Params.default_inRange : Params.default.inRange := by
  unfold Params.inRange Params.default
  decide

/-- The parameters of any image lie in their ranges (R191). -/
theorem Params.load_inRange (values : Nat → Int) : (Params.load values).inRange := by
  unfold Params.load
  refine List.foldlRecOn paramNumbers _ Params.default_inRange fun p range n _ => ?_
  split
  · exact Params.write_inRange ‹_› range
  · exact range

end

/-! ### SET_TUNING -/

theorem rejudge_frame (s : State) (b : BranchId) : rejudge s b = { s with
    drips := (rejudge s b).drips, incidents := (rejudge s b).incidents, ports := (rejudge s b).ports } := by
  unfold rejudge enterJudged
  dsimp only
  split
  · rw [report_frame]; rfl
  · rfl

/-- DRIP_THRESHOLD judged afresh changes the accumulators and the reports alone. -/
theorem foldl_rejudge_frame (bs : List BranchId) (s : State) : bs.foldl rejudge s = { s with
    drips := (bs.foldl rejudge s).drips, incidents := (bs.foldl rejudge s).incidents
    ports := (bs.foldl rejudge s).ports } := by
  induction bs generalizing s with
  | nil => rfl
  | cons b bs ih => rw [List.foldl_cons, ih, rejudge_frame]

theorem rejudge_drip (s : State) (b c : BranchId) : (rejudge s b).drip c = if c = b then
    { s.drip b with
      amount := min (s.drip b).amount (4 * s.params.dripThreshold)
      level := judgeLevel s.params.dripThreshold (min (s.drip b).amount (4 * s.params.dripThreshold)) (s.drip b).level }
    else s.drip c := by
  unfold rejudge enterJudged
  dsimp only
  split <;> simp

/-- A new DRIP_THRESHOLD caps every accumulator it has been applied to (R151). -/
theorem foldl_rejudge_amount (bs : List BranchId) (c : BranchId) : ∀ s : State, ((bs.foldl rejudge s).drip c).amount =
    if c ∈ bs then min (s.drip c).amount (4 * s.params.dripThreshold) else (s.drip c).amount := by
  induction bs with
  | nil => exact fun s => rfl
  | cons b bs ih =>
    intro s
    rw [List.foldl_cons, ih, rejudge_drip, show (rejudge s b).params = s.params by rw [rejudge_frame]]
    by_cases same : c = b <;> by_cases listed : c ∈ bs <;> simp [same, listed]

theorem foldl_rejudge_told (bs : List BranchId) (s : State) : Told s (bs.foldl rejudge s) := by
  refine Told.foldl (fun t b => ?_) bs s
  unfold rejudge enterJudged
  dsimp only
  have written (x : Accumulator) : Told t (t.setDrip b x) := (Told.refl t).congr rfl rfl rfl rfl
  split
  · exact (written _).trans (Told.report ..)
  · exact written _

section

variable {own : Port → Prop} {ages : Prop} {s : State}

/-- A DRIP_THRESHOLD written, with every accumulator capped and judged afresh (R151). -/
theorem rejudge_changes {p : Params} (range : s.params.inRange → p.inRange) :
    Changes own ages s (allBranches.foldl rejudge { s with params := p }) := by
  have told := foldl_rejudge_told allBranches { s with params := p }
  have amount (b : BranchId) := foldl_rejudge_amount allBranches b { s with params := p }
  rw [foldl_rejudge_frame]
  generalize allBranches.foldl rejudge { s with params := p } = t at told amount ⊢
  have capped (b : BranchId) : (t.drip b).amount = min (s.drip b).amount (4 * p.dripThreshold) :=
    (amount b).trans (if_pos (List.mem_finRange b))
  let s₁ : State := { s with drips := t.drips }
  let s₂ : State := { s₁ with params := p }
  have drips : Change own ages s s₁ := by
    refine .drips s _ fun ⟨bounded, empty⟩ => ⟨fun b => ?_, fun loading b => ?_⟩
    · have := bounded b
      change (t.drip b).amount ≤ _
      rw [capped]
      dsimp only
      omega
    · have := empty loading b
      change (t.drip b).amount = 0
      rw [capped]
      omega
  have params : Change own ages s₁ s₂ := by
    refine .params s₁ p range fun ⟨_, empty⟩ => ⟨fun b => ?_, empty⟩
    change (t.drip b).amount ≤ _
    rw [capped]
    exact Nat.min_le_right ..
  exact .head drips (.head params (Told.change (s := s₂) (told.congr rfl rfl rfl rfl)))

theorem tuningEffect_dripThreshold (old : Params) (s : State) : tuningEffect 25 old s = allBranches.foldl rejudge s := rfl

/-- What every written parameter but DRIP_THRESHOLD does at once. -/
theorem tuningEffect_changes {number : Nat} (old : Params) (other : number ≠ 25) (loaded : s.loading = false) :
    Changes own ages s (tuningEffect number old s) := by
  unfold tuningEffect
  split
  · split
    · exact .refl
    · exact .single (.frame s)
  · exact freezeEnds_changes
  · have first : Changes own ages s (lowPressureEnds .a s) := lowPressureEnds_changes .a loaded
    exact first.trans (lowPressureEnds_changes .b (Changes.loaded first loaded))
  · exact absurd rfl other
  · exact .refl

theorem setTuning_changes (number : Nat) (v : Int) (loaded : s.loading = false) :
    Changes own ages s (setTuning number v s).2 := by
  unfold setTuning
  split
  · exact .refl
  rename_i p clamped written
  have range (before : s.params.inRange) : p.inRange := Params.write_inRange written before
  dsimp only
  by_cases drips : number = 25
  · subst drips
    rw [tuningEffect_dripThreshold]
    exact rejudge_changes range
  have changed : Changes own ages s { s with params := p } := by
    refine .single (.params s p range fun ⟨bounded, empty⟩ => ⟨fun b => ?_, empty⟩)
    dsimp only
    rw [Params.write_dripThreshold written drips]
    exact bounded b
  exact changed.trans (tuningEffect_changes _ drips loaded)

end

end Sys2Proof.Machine

/-! ## Every operation is a run of changes: the two resets -/

namespace Sys2Proof.Machine

open Sys2Proof

section

variable {own : Port → Prop} {ages : Prop} {s t : State}

/-! ### The warm reset -/

theorem takeReset_changes (all : ∀ p, own p) (s : State) : Changes own ages s (takeReset s) := by
  let s₁ : State := { s with ports := mapTable (fun _ => LinkPort.toIdle) s.ports }
  let s₂ : State := { s₁ with store := s.store.abandon }
  have store : Change own ages s₁ s₂ := .store s₁ _ fun ⟨_, queue, _⟩ => ⟨nofun, queue, nofun⟩
  exact .head (.ports s all _) (.head store (.single (.frame s₂)))

theorem clearMeasurements_changes (s : State) : Changes own ages s (clearMeasurements s) := by
  let s₁ : State := { s with
    measured := Vector.replicate 48 Measurement.cleared, segments := Vector.replicate 16 SegmentRecord.cleared
    head := HeadRecord.cleared }
  have field : Change own ages s s₁ := by
    refine .field s _ _ _ (fun _ => ⟨fun b => ?_, Nat.zero_le _, Nat.zero_le _⟩) fun _ => ⟨fun z => ?_, Nat.zero_le _⟩
    · rw [show s₁.measure b = Measurement.cleared by simp [s₁, State.measure, Vector.get]]
      simp [Measurement.cleared]
    · rw [show s₁.segment z = SegmentRecord.cleared by simp [s₁, State.segment, Vector.get]]
      exact Nat.zero_le _
  exact .head field (.single (.frame s₁))

theorem dropSwitch_changes : Changes own ages s (dropSwitch s) := by
  unfold dropSwitch
  split
  · split
    · exact cancelSwitch_changes ‹_› ‹_›
    · exact dropRecord_changes s
  · exact .refl

theorem restartFeeds_changes (s : State) : Changes own ages s (restartFeeds s) := by
  refine dropSwitch_changes.trans ?_
  unfold restartFeeds
  dsimp only
  generalize dropSwitch s = t
  have same (f : Feed) : Vector.get (mapTable (fun _ => FeedRecord.restart) t.feeds) f.idx = (t.feed f).restart :=
    get_mapTable ..
  refine .single (.feeds t _ t.activeFeed t.switch _ t.bothOpen ?_ fun _ f => ?_)
  · rintro ⟨active, agree, both, startup, loading⟩
    have inlet (f : Feed) : (Vector.get (mapTable (fun _ => FeedRecord.restart) t.feeds) f.idx).inlet = (t.feed f).inlet := by
      rw [same]; rfl
    refine ⟨(inlet _).trans active, fun w inFlight opening => ?_, fun h => ⟨(inlet _).trans (both h).1, (both h).2⟩,
      fun h => startup fun none => h (by simp [none]), loading⟩
    obtain ⟨origin, target, opened⟩ := agree w inFlight opening
    exact ⟨origin, target, (inlet _).trans opened⟩
  · have here : ({ t with feeds := mapTable (fun _ => FeedRecord.restart) t.feeds } : State).feed f = (t.feed f).restart :=
      same f
    rw [here]
    exact ⟨nofun, Nat.zero_le _⟩

theorem restartBranches_changes (s : State) : Changes own ages s { s with
    branches := mapTable (fun b => Branch.restart s.params (s.entry b)) s.branches } := by
  refine .single (.branches s _ (fun b => ?_) (.inr fun b => ?_)) <;> rw [get_mapTable]
  · exact .restart _
  · rw [Branch.restart_state]; exact id

theorem Zone.restart_fits (window : Nat) {z : Zone} (fits : z.fits) : (z.restart window).fits :=
  ⟨fits.1, fun present => fits.2 fun none => present (by simp [Zone.restart, none])⟩

theorem restartRecords_changes (all : ∀ p, own p) (s : State) : Changes own ages s (restartRecords s) := by
  have cleared : Changes own ages s (restartFeeds (restartCycles (clearMeasurements s))) :=
    ((clearMeasurements_changes s).tail (.frame _)).trans (restartFeeds_changes _)
  refine cleared.trans ?_
  unfold restartRecords
  generalize restartFeeds (restartCycles (clearMeasurements s)) = t
  let t₁ : State := { t with branches := mapTable (fun b => Branch.restart t.params (t.entry b)) t.branches }
  let t₂ : State := { t₁ with freeze := none }
  let t₃ : State := { t₂ with zones := mapTable (fun _ => Zone.restart t.params.confirmWindow) t.zones }
  let t₄ : State := { t₃ with park := t.park.map fun _ => { window := Timer.start t.params.parkWindow, confirmed := 0 } }
  have zones : Change own ages t₂ t₃ := by
    refine .zones t₂ _ fun z fits => ?_
    rw [get_mapTable]
    exact Zone.restart_fits _ fits
  have park : Change own ages t₃ t₄ := by
    refine .modes t₃ t.mode t.faultHold _ (fun ⟨safe, count, parked⟩ => ⟨safe, count, ?_⟩) id
    rw [Option.isSome_map]
    exact parked
  exact (restartBranches_changes t).trans (.head (.frame t₁) (.head zones (.head park (.single (.ports t₄ all _)))))

theorem reportAbort_changes : Changes own ages s (reportAbort s) := by
  unfold reportAbort
  split
  · exact Changes.report _ _ _ (.single (.frame s))
  · exact .refl

theorem completeReset_changes (all : ∀ p, own p) (s : State) : Changes own ages s (completeReset s) :=
  (restartRecords_changes all s).trans (reportAbort_changes.trans (startRound_changes _))

/-! ### The power-on load -/

/-- Branch by branch in ascending index: what holds of the branches below each one when its turn comes holds of all. -/
theorem foldl_finRange_induction {n : Nat} {α : Type} {f : α → Fin n → α} {P : Nat → α → Prop} {a : α} (start : P 0 a)
    (each : ∀ (i : Fin n) (x : α), P i x → P (i + 1) (f x i)) : P n ((List.finRange n).foldl f a) := by
  have upTo : ∀ k ≤ n, P k (((List.finRange n).take k).foldl f a) := by
    intro k
    induction k with
    | zero => exact fun _ => start
    | succ k ih =>
      intro within
      have here : k < (List.finRange n).length := by simpa using within
      rw [List.take_succ_eq_append_getElem here, List.foldl_append, List.getElem_finRange]
      exact each ⟨k, within⟩ _ (ih (by omega))
  have whole := upTo n le_rfl
  rwa [List.take_of_length_le (by simp)] at whole

/-- One entry of the load leaves everything but the entry alone, with at most a report. -/
theorem loadEntry_frame (image : List Byte) (s : State) (b : BranchId) : loadEntry image s b = { s with
    map := (loadEntry image s b).map, incidents := (loadEntry image s b).incidents
    ports := (loadEntry image s b).ports } := by
  unfold loadEntry
  split
  · rfl
  split
  · rfl
  split
  · rw [report_frame]; rfl
  · rfl

theorem loadEntry_told (image : List Byte) (s : State) (b : BranchId) : Told s (loadEntry image s b) := by
  have written (e : MapEntry) : Told s (s.setEntry b e) := (Told.refl s).congr rfl rfl rfl rfl
  unfold loadEntry
  split
  · exact written _
  split
  · exact written _
  split
  · exact (written _).trans (Told.report ..)
  · exact written _

theorem storedEntry_fits {image : List Byte} {b : BranchId} {e : MapEntry} (h : storedEntry image b = some e) :
    e.fits ∧ e.slotTag ≠ none := by
  unfold storedEntry at h
  split at h
  · obtain ⟨⟨e', clamped⟩, read, rfl⟩ := Option.map_eq_some_iff.mp h
    exact entryOfBytes_fits read
  · cases h

/-- What one turn of the load writes: the defaults, or an entry in range whose tag no earlier entry carries (R16, R191). -/
theorem loadEntry_entry (image : List Byte) (s : State) (b : BranchId) : ∃ e : MapEntry,
    (∀ c, (loadEntry image s b).entry c = if c = b then e else s.entry c) ∧
      (e = MapEntry.default ∨ e.fits ∧ e.slotTag ≠ none ∧ ∀ c < b, (s.entry c).slotTag ≠ e.slotTag) := by
  have written (e : MapEntry) (c : BranchId) := State.setEntry_entry s b c e
  unfold loadEntry
  split
  · exact ⟨_, written _, .inl rfl⟩
  rename_i e stored
  obtain ⟨fits, valid⟩ := storedEntry_fits stored
  split
  · exact ⟨_, written _, .inl rfl⟩
  rename_i tag carried
  split
  · exact ⟨_, fun c => (report_entry ..).trans (written _ c), .inl rfl⟩
  rename_i free
  refine ⟨e, written _, .inr ⟨fits, valid, fun c below same => free ?_⟩⟩
  exact List.any_eq_true.mpr ⟨c, List.mem_finRange c, by simpa using ⟨below, same.trans carried⟩⟩

/-- The entries that a load of the first `k` branches has set: in range, and no two of one tag (R11, R16). -/
def EntriesLoaded (k : Nat) (s : State) : Prop :=
  (∀ b : BranchId, b.val < k → (s.entry b).fits) ∧
    ∀ b c : BranchId, b.val < k → c.val < k → b ≠ c → (s.entry b).slotTag ≠ none →
      (s.entry b).slotTag ≠ (s.entry c).slotTag

theorem EntriesLoaded.next {image : List Byte} {b : BranchId} (loaded : EntriesLoaded b s) :
    EntriesLoaded (b + 1) (loadEntry image s b) := by
  obtain ⟨fits, distinct⟩ := loaded
  obtain ⟨e, written, cases⟩ := loadEntry_entry image s b
  have earlier (c : BranchId) (below : c.val < b + 1) (other : c ≠ b) : c.val < b.val := by
    have := Fin.val_ne_of_ne other
    omega
  have free : e.slotTag ≠ none → ∀ c : BranchId, c.val < b.val → (s.entry c).slotTag ≠ e.slotTag := by
    rcases cases with rfl | ⟨_, _, free⟩
    · exact fun valid => absurd rfl valid
    · exact fun _ => free
  refine ⟨fun c below => ?_, fun c d belowC belowD apart valid => ?_⟩
  · rw [written]
    split
    · rcases cases with rfl | ⟨fits, _⟩
      exacts [MapEntry.default_fits, fits]
    · exact fits c (earlier c below ‹_›)
  · rw [written] at valid
    rw [written, written]
    by_cases hc : c = b <;> by_cases hd : d = b
    · exact absurd (hc.trans hd.symm) apart
    · simp only [hc, hd, if_true, if_false] at valid ⊢
      exact (free valid d (earlier d belowD hd)).symm
    · simp only [hc, hd, if_true, if_false] at valid ⊢
      exact fun same => free (same ▸ valid) c (earlier c belowC hc) same
    · simp only [hc, hd, if_false] at valid ⊢
      exact distinct c d (earlier c belowC hc) (earlier d belowD hd) apart valid

theorem foldl_loadEntry_frame (image : List Byte) (bs : List BranchId) (s : State) : bs.foldl (loadEntry image) s = { s with
    map := (bs.foldl (loadEntry image) s).map, incidents := (bs.foldl (loadEntry image) s).incidents
    ports := (bs.foldl (loadEntry image) s).ports } := by
  induction bs generalizing s with
  | nil => rfl
  | cons b bs ih => rw [List.foldl_cons, ih, loadEntry_frame]

/-- From `s` to `t` the judgement of the stored image has changed nothing but what it loads and reports. -/
def JudgedFrame (s t : State) : Prop :=
  ∃ p m z l v, t = { s with params := p, map := m, zones := z, incidents := l, ports := v }

/-- What the judgement of the stored image makes of the part (R191, R192). -/
structure Judged (s t : State) : Prop where
  frame : JudgedFrame s t
  params : t.params.inRange
  tags : TagsDistinct t
  entries : EntriesFit t
  zones : ∀ z, ∃ policy, t.zone z = { s.zone z with policy := policy }
  told : Told s t

theorem foldl_loadEntry_loaded (image : List Byte) (s : State) :
    EntriesLoaded 48 (allBranches.foldl (loadEntry image) s) :=
  foldl_finRange_induction (P := EntriesLoaded) ⟨nofun, nofun⟩ fun _ _ => EntriesLoaded.next

theorem foldl_loadEntry_told (image : List Byte) (bs : List BranchId) (s : State) : Told s (bs.foldl (loadEntry image) s) :=
  Told.foldl (fun t b => loadEntry_told image t b) bs s

/-- The zone policies loaded over the loaded parameters and entries. -/
theorem loadPolicies_judged {image : List Byte} {p : Params} {m : Vector MapEntry 48} {l : IncidentList}
    {v : Vector LinkPort 4} (range : p.inRange) (loaded : EntriesLoaded 48 { s with map := m })
    (told : Told s { s with incidents := l, ports := v }) :
    Judged s (loadPolicies image { s with params := p, map := m, incidents := l, ports := v }) := by
  obtain ⟨fits, distinct⟩ := loaded
  refine ⟨⟨_, _, _, _, _, rfl⟩, range, fun b c => distinct b c b.isLt c.isLt, fun b => fits b b.isLt,
    fun z => ⟨storedPolicy image z, ?_⟩, told.congr rfl rfl rfl rfl⟩
  change Vector.get (mapTable (fun z x => { x with policy := storedPolicy image z }) s.zones) z = _
  rw [get_mapTable]
  rfl

theorem loadImage_judged (image : List Byte) (s : State) : Judged s (loadImage image s) := by
  unfold loadImage
  have range := Params.load_inRange fun n => signedAt4 image (4 + 4 * (n - 1))
  generalize (Params.load fun n => signedAt4 image (4 + 4 * (n - 1))) = p at range ⊢
  have loaded := foldl_loadEntry_loaded image { s with params := p }
  have told := foldl_loadEntry_told image allBranches { s with params := p }
  have frame := foldl_loadEntry_frame image allBranches { s with params := p }
  generalize allBranches.foldl (loadEntry image) { s with params := p } = t at loaded told frame ⊢
  rw [frame]
  exact loadPolicies_judged range loaded (told.congr rfl rfl rfl rfl)

theorem loadDefaults_judged (s : State) : Judged s (loadDefaults s) := by
  unfold loadDefaults
  generalize fresh : ({ s with
    params := Params.default, map := Vector.replicate 48 MapEntry.default
    zones := mapTable (fun _ x => { x with policy := .auto }) s.zones } : State) = t
  have entry (b : BranchId) : (report .storeInvalid .nothing none t).entry b = MapEntry.default := by
    rw [report_entry, ← fresh]
    simp [State.entry, Vector.get]
  refine ⟨?_, ?_, fun b c _ valid => absurd (by rw [entry]; rfl) valid, fun b => ?_, fun z => ⟨.auto, ?_⟩, ?_⟩
  · rw [report_frame, ← fresh]
    exact ⟨_, _, _, _, _, rfl⟩
  · rw [report_params, ← fresh]
    exact Params.default_inRange
  · rw [entry]
    exact MapEntry.default_fits
  · rw [report_zone, ← fresh]
    change Vector.get (mapTable (fun _ x => { x with policy := .auto }) s.zones) z = _
    rw [get_mapTable]
    rfl
  · exact ((Told.refl s).congr rfl rfl (by rw [← fresh]) (by rw [← fresh])).trans (Told.report ..)

theorem loadStore_judged (imageRead : Bool) (s : State) : Judged s (loadStore imageRead s) := by
  unfold loadStore
  split
  · exact loadImage_judged _ s
  · exact loadDefaults_judged s

theorem judgeMarks_judged {marksRead : Bool} (h : Judged s t) : Judged s (judgeMarks marksRead t) := by
  unfold judgeMarks
  split
  · exact h
  obtain ⟨frame, params, tags, entries, zones, told⟩ := h
  refine ⟨?_, ?_, ?_, fun b => ?_, fun z => ?_, told.trans (Told.report ..)⟩
  · obtain ⟨p, m, z, l, v, rfl⟩ := frame
    rw [report_frame]
    exact ⟨_, _, _, _, _, rfl⟩
  · rw [report_params]
    exact params
  · unfold TagsDistinct at tags ⊢
    simpa only [report_entry] using tags
  · rw [report_entry]
    exact entries b
  · rw [report_zone]
    exact zones z

/-! ### The start states -/

/-- The start record of a branch (R61). -/
def startRecord (marksRead : Bool) (s : State) (b : BranchId) : Branch :=
  if storedMark s.eeprom marksRead b then Branch.toIsolating .stored s.params.isolateWindow
  else if (s.entry b).slotTag = none then Branch.initial
  else if (s.entry b).autoAdmit then Branch.initial.toPriming (s.entry b) s.params.primeWindow 1
  else Branch.initial.atRest .vacant 0 none

theorem startRecord_start (marksRead : Bool) (s : State) (b : BranchId) :
    Branch.Start s.params (s.entry b) (startRecord marksRead s b) := by
  unfold startRecord
  split
  · exact .stored
  split
  · exact .blank ‹_›
  split
  · exact .primes ‹_›
  · exact .waits ‹_›

theorem startBranch_frame (marksRead : Bool) (s : State) (b : BranchId) : startBranch marksRead s b = { s with
    branches := put s.branches b (startRecord marksRead s b), store := (startBranch marksRead s b).store } := by
  unfold startBranch startRecord takeOrder
  dsimp only
  split
  · split <;> rfl
  split
  · rfl
  split <;> rfl

theorem startBranch_store (marksRead : Bool) (s : State) (b : BranchId) (fits : StoreFits s) :
    StoreFits (startBranch marksRead s b) := by
  unfold startBranch takeOrder
  dsimp only
  split
  · split
    · exact fits
    · exact StoreFits.handMark b true fits
  split
  · exact fits
  split <;> exact fits

/-- From `s` to `t` the start states have changed nothing but the branch records and the Store Controller. -/
def StartedFrame (s t : State) : Prop := ∃ v x, t = { s with branches := v, store := x }

/-- What the start states of the first `k` branches make of the part. -/
structure Started (marksRead : Bool) (s : State) (k : Nat) (t : State) : Prop where
  frame : StartedFrame s t
  started : ∀ b : BranchId, b.val < k → t.branch b = startRecord marksRead s b
  store : StoreFits s → StoreFits t

theorem foldl_startBranch_started (marksRead : Bool) (s : State) :
    Started marksRead s 48 (allBranches.foldl (startBranch marksRead) s) := by
  refine foldl_finRange_induction (P := Started marksRead s) ⟨⟨_, _, rfl⟩, nofun, id⟩ fun b t ⟨frame, started, store⟩ => ?_
  have record : startRecord marksRead t b = startRecord marksRead s b := by
    obtain ⟨v, x, rfl⟩ := frame
    rfl
  have next := startBranch_frame marksRead t b
  refine ⟨?_, fun c below => ?_, fun fits => startBranch_store marksRead t b (store fits)⟩
  · obtain ⟨v, x, rfl⟩ := frame
    rw [next]
    exact ⟨_, _, rfl⟩
  · rw [next]
    change (t.setBranch b _).branch c = _
    rw [State.setBranch_branch]
    split
    · rename_i same; rw [same, record]
    · rename_i other
      have := Fin.val_ne_of_ne other
      exact started c (by omega)

end

end Sys2Proof.Machine

/-! ## Every step is a run of changes -/

namespace Sys2Proof.Machine

open Sys2Proof

section

variable {own : Port → Prop} {ages : Prop} {s t : State}

/-! ### The end of the load -/

/-- The feeds, the active feed and the start-up of a start (R135), in a part that still loads. -/
theorem startFeeds_changes {f : Feed} {u : Option Timer} (loading : s.loading = true) : Changes own ages s { s with
    feeds := ((s.setInlet f .opened).setInlet f.other .closed).feeds, activeFeed := f, startup := u } := by
  refine .single (.feeds s _ f s.switch u s.bothOpen ?_ fun k => FeedsAgree.setInlet f.other .closed
    (FeedsAgree.setInlet f .opened k))
  rintro ⟨_, _, _, _, idle⟩
  obtain ⟨none, resolved⟩ := idle loading
  refine ⟨?_, fun w inFlight => absurd (none.symm.trans inFlight) nofun, fun h => absurd (resolved.symm.trans h) nofun,
    fun _ => ⟨none, resolved⟩, fun _ => ⟨none, resolved⟩⟩
  change (((s.setInlet f .opened).setInlet f.other .closed).feed f).inlet = .opened
  rw [State.setInlet_feed, if_neg (Feed.ne_other f), State.setInlet_feed, if_pos rfl]

/-- The judged load followed by the start states, as changes: the feeds while the part loads, the load itself, the mark
writes, the reports. -/
theorem finishLoad_changes (imageRead marksRead : Bool) (loading : s.loading = true) :
    Changes own ages s (finishLoad imageRead marksRead s) := by
  have judged : Judged s (judgeMarks marksRead (loadStore imageRead s)) := judgeMarks_judged (loadStore_judged imageRead s)
  have started := foldl_startBranch_started marksRead (judgeMarks marksRead (loadStore imageRead s))
  unfold finishLoad
  dsimp only
  generalize allBranches.foldl (startBranch marksRead) (judgeMarks marksRead (loadStore imageRead s)) = u at started ⊢
  generalize judgeMarks marksRead (loadStore imageRead s) = t at judged started
  obtain ⟨startedFrame, start, store⟩ := started
  have starts (b : BranchId) : Branch.Start t.params (t.entry b) (u.branch b) :=
    (start b b.isLt).symm ▸ startRecord_start marksRead t b
  obtain ⟨bs, x, rfl⟩ := startedFrame
  obtain ⟨⟨p, m, z, l, v, rfl⟩, params, tags, entries, zones, told⟩ := judged
  refine Changes.notifyAll _ ?_
  let s₁ : State := { s with
    feeds := ((s.setInlet p.preferredFeed .opened).setInlet p.preferredFeed.other .closed).feeds
    activeFeed := p.preferredFeed, startup := some (Timer.start p.switchWindow) }
  let s₂ : State := { s₁ with map := m, branches := bs, zones := z, params := p, loading := false }
  let s₃ : State := { s₂ with store := x }
  let s₄ : State := { s₃ with incidents := l, ports := v }
  have load : Change own ages s₁ s₂ := by
    refine .load s₁ m bs z p loading tags entries params (fun i fits => ?_) starts
    obtain ⟨policy, same⟩ := zones i
    rw [show z.get i = { s.zone i with policy := policy } from same]
    exact fits
  have marks : Change own ages s₂ s₃ := .store s₂ x store
  have reports : Changes own ages s₃ s₄ := Told.change (s := s₃) (t := s₄) (told.congr rfl rfl rfl rfl)
  exact (startFeeds_changes loading).trans (.head load (.head marks (reports.tail (.frame s₄))))

theorem endLoad_changes (all : ∀ p, own p) (imageRead marksRead : Bool) : Changes own ages s (endLoad imageRead marksRead s) := by
  unfold endLoad
  split
  · have finished : Changes own ages s (finishLoad imageRead marksRead s) := finishLoad_changes imageRead marksRead ‹_›
    dsimp only
    split
    · exact finished.trans (takeReset_changes all _)
    · exact finished
  · exact .refl

theorem lowerReset_changes (all : ∀ p, own p) : Changes own ages s (lowerReset s) := by
  unfold lowerReset
  split
  · exact .refl
  dsimp only
  split
  · exact .single (.frame s)
  · exact .head (.frame s) (takeReset_changes all _)

theorem raiseReset_changes (all : ∀ p, own p) : Changes own ages s (raiseReset s) := by
  unfold raiseReset
  split
  · dsimp only
    split
    · exact .single (.frame s)
    · exact .head (.frame s) (completeReset_changes all _)
  · exact .refl

theorem restartNow_changes (all : ∀ p, own p) : Changes own ages s (restartNow s) := by
  unfold restartNow
  split
  · exact (takeReset_changes all s).trans (completeReset_changes all _)
  · exact .refl

/-! ### Requests -/

section

variable {h : BranchId → Handler} {hz : SegId → Handler}

theorem byBranch_changes (each : ∀ b, Changes own ages s (h b s).2) (n : Nat) : Changes own ages s (byBranch n h s).2 := by
  unfold byBranch
  split
  · exact each _
  · exact .refl

theorem bySlotTag_changes (each : ∀ b, Changes own ages s (h b s).2) (n : Nat) :
    Changes own ages s (bySlotTag n h s).2 := by
  unfold bySlotTag
  split
  · exact each _
  · exact .refl

theorem byZone_changes (each : ∀ z, Changes own ages s (hz z s).2) (n : Nat) : Changes own ages s (byZone n hz s).2 := by
  unfold byZone
  split
  · exact each _
  · exact .refl

theorem byForm_changes (each : ∀ b, Changes own ages s (h b s).2) (form n : Nat) :
    Changes own ages s (byForm form n h s).2 := by
  unfold byForm
  split
  · exact bySlotTag_changes each n
  split
  · exact byBranch_changes each n
  · exact .refl

end

theorem ownPort_change (s : State) (p : Port) (x : LinkPort) : Change (· = p) ages s (s.setPort p x) :=
  Change.port (own := fun q => q = p) s rfl x

/-- A request changes what its handler changes, and the port that it came on. -/
theorem request_changes {p : Port} {code : Byte} {lengths : List Nat} {allowed : List Port} {body : List Byte} {h : Handler}
    (handled : s.loading = false → Changes (· = p) False s (h s).2)
    (hr : request p code lengths allowed body h s = .next t) : Changes (· = p) False s t := by
  have answered (u : State) (r : Reply) : Change (· = p) False u (u.answering p code r) := ownPort_change u p _
  rcases request_cases hr with ⟨-, rfl⟩ | ⟨-, st, -, rfl⟩ | ⟨-, loaded, -, -, rfl⟩
  · exact .refl
  · exact .single (answered s _)
  · exact (handled loaded).tail (answered _ _)

theorem ackIncident_changes (sequence : Nat) : Changes own ages s (ackIncident sequence s).2 := by
  unfold ackIncident
  split
  · refine .single (.told s _ s.ports (fun ⟨few, kinds, numbers, overflow, next⟩ => ?_) fun _ => LinkPort.onlyFlagged_refl _)
    have sub : (s.incidents.acknowledge sequence).records.Sublist s.incidents.records := List.filter_sublist
    refine ⟨sub.length_le.trans few, (sub.map _).nodup kinds, (sub.map _).nodup numbers, ?_, next⟩
    change (if _ then 0 else s.incidents.overflow) ≤ 255
    split
    · exact Nat.zero_le _
    · exact overflow
  · exact .refl

theorem setNoticeMask_changes (p : Port) (enables : Nat) : Changes (· = p) ages s (setNoticeMask p enables s).2 := by
  unfold setNoticeMask
  split
  · exact .refl
  · exact .single (ownPort_change s p _)

theorem isolateZone_changes (z : SegId) (s : State) :
    Changes own ages s (isolateAll .panel (zoneBranches z) (stopConfirm z s)) :=
  (stopConfirm_changes z s).trans (isolateAll_changes ..)

/-- Every request of the catalogue is a run of changes in which no lease ages, and which write no port but its own. -/
theorem catalogue_changes {c : Instr} {q : Catalogued} (listed : catalogue c = some q) (h : exec c s = .next t) :
    Changes (· = q.port) False s t := by
  cases c <;> cases listed
  case readStatus | readFeeds | readLeases | readIncidents => exact request_changes (fun _ => .refl) h
  case readBranch | readPlan => exact request_changes (fun _ => byForm_changes (fun _ => .refl) _ _) h
  case readSegment => exact request_changes (fun _ => byZone_changes (fun _ => .refl) _) h
  case readNotices => exact request_changes (fun _ => .single (ownPort_change s _ _)) h
  case setNoticeMask => exact request_changes (fun _ => setNoticeMask_changes _ _) h
  case mapWrite => exact request_changes (fun _ => byBranch_changes (mapWrite_changes _) _) h
  case mapClear => exact request_changes (fun _ => byBranch_changes mapClear_changes _) h
  case admitBranch => exact request_changes (fun _ => bySlotTag_changes admitBranch_changes _) h
  case release => exact request_changes (fun _ => bySlotTag_changes releaseRequest_changes _) h
  case pin => exact request_changes (fun _ => bySlotTag_changes (pin_changes _) _) h
  case unpin => exact request_changes (fun _ => bySlotTag_changes unpin_changes _) h
  case setDemand => exact request_changes (fun loaded => bySlotTag_changes (fun b => setDemand_changes _ b loaded) _) h
  case setLimits =>
    exact request_changes (fun loaded => bySlotTag_changes (fun b => setLimits_changes _ _ _ b loaded) _) h
  case freeze => exact request_changes (fun _ => freezePlan_changes _) h
  case thaw => exact request_changes (fun _ => thawPlan_changes _) h
  case setTuning => exact request_changes (setTuning_changes _ _) h
  case grantBudget => exact request_changes (fun _ => grantBudget_changes _ _) h
  case withdrawBudget => exact request_changes (fun _ => withdrawBudget_changes _) h
  case switchFeed => exact request_changes (switchFeed_changes _ _) h
  case lockFeed => exact request_changes (fun _ => .single (.lock s)) h
  case isolateBranch => exact request_changes (fun _ => byBranch_changes (fun b => isolate_changes .panel b s) _) h
  case isolateZone => exact request_changes (fun _ => byZone_changes (fun z => isolateZone_changes z s) _) h
  case restoreBranch p body =>
    refine request_changes (fun _ => ?_) h
    split
    · exact bySlotTag_changes restoreByRack_changes _
    · exact byBranch_changes restoreBranch_changes _
  case restoreZone => exact request_changes (fun _ => byZone_changes restoreZone_changes _) h
  case clearZone => exact request_changes (fun _ => byZone_changes clearZone_changes _) h
  case setZonePolicy => exact request_changes (fun _ => byZone_changes (setZonePolicy_changes _) _) h
  case hold => exact request_changes hold_changes h
  case releaseHold => exact request_changes (fun _ => releaseHold_changes) h
  case clearFault => exact request_changes (fun _ => clearFault_changes) h
  case clearSafe => exact request_changes (fun _ => clearSafe_changes) h
  case park => exact request_changes park_changes h
  case unpark => exact request_changes (fun _ => unpark_changes) h
  case ackIncident => exact request_changes (fun _ => ackIncident_changes _) h
  case saveConfig => exact request_changes (fun _ => saveConfig_changes) h
  case restart => exact request_changes (fun _ => .single (.frame s)) h

end

end Sys2Proof.Machine

/-! ## What every step keeps -/

namespace Sys2Proof.Machine

open Sys2Proof

variable {s t u : State}

/-! ### Runs -/

/-- A run of changes, whatever ports they write and whatever leases age in it, over which the leases stay in order. -/
structure Run (s t : State) : Prop where
  keeps : ∀ {P : State → Prop}, (∀ {own : Port → Prop} {ages : Prop} {s t : State}, Change own ages s t → P s → P t) →
    P s → P t
  leases : LeasesOrdered s → LeasesOrdered t

theorem Run.trans (first : Run s t) (second : Run t u) : Run s u :=
  ⟨fun each => second.keeps each ∘ first.keeps each, second.leases ∘ first.leases⟩

/-- Changes in which no lease ages are a run. -/
theorem Changes.run {own : Port → Prop} (h : Changes own False s t) : Run s t :=
  ⟨fun each => h.keeps each, h.keeps fun change => change.keeps_leasesOrdered id⟩

theorem Run.elapse (s : State) (ms : Nat) : Run s (s.elapse ms) :=
  ⟨fun each => Changes.keeps (own := fun _ => True) (elapse_changes s ms).2 each, fun ordered => ordered.elapse ms⟩

theorem State.loading_of_running (runs : s.running = true) : s.loading = false := by
  simp only [State.running, Bool.and_eq_true, Bool.not_eq_true'] at runs
  exact runs.1

/-- An event is a passage of time and what its handler does in a running part. -/
theorem event_run {after : Nat} {f : State → State}
    (handled : ∀ u, u.loading = false → Changes (fun _ => True) False u (f u)) (h : event after f s = .next t) : Run s t := by
  rcases event_cases h with ⟨runs, rfl⟩ | ⟨-, rfl⟩
  · exact (Run.elapse s after).trans (handled _ (State.loading_of_running runs)).run
  · exact Run.elapse s after

theorem lineEvent_run {after : Nat} {f : State → State} (handled : ∀ u, Changes (fun _ => True) False u (f u))
    (h : lineEvent after f s = .next t) : Run s t := by
  rcases lineEvent_cases h with rfl | rfl
  · exact (Run.elapse s after).trans (handled _).run
  · exact Run.elapse s after

/-- A reset or a load is a passage of time and what it does to the part. -/
theorem next_run {after : Nat} {f : State → State} (handled : ∀ u, Changes (fun _ => True) False u (f u))
    (h : (.next (f (s.elapse after)) : Host.Outcome State Fault Refusal) = .next t) : Run s t := by
  cases h
  exact (Run.elapse s after).trans (handled _).run

/-- What a mark that is due does is what the passing of time makes of it. -/
theorem reachMark_due {f : Feed} {phase : LeasePhase} (due : leaseDue s f phase = true) :
    reachMark f phase s = takeLeaseMark f s := by
  unfold leaseDue at due
  split at due
  · rename_i l present
    simp only [Bool.and_eq_true, decide_eq_true_eq] at due
    obtain ⟨same, reached⟩ := due
    unfold takeLeaseMark
    rw [present]
    simp only [reached, if_true, same]
  · cases due

/-- A mark taken by its own command, before another that falls at its moment. -/
theorem leaseEvent_run {after : Nat} {f : Feed} {phase : LeasePhase}
    (h : leaseEvent after (fun u => if leaseDue u f phase then reachMark f phase u else u) s = .next t) : Run s t := by
  rcases leaseEvent_cases h with ⟨runs, rfl⟩ | ⟨-, rfl⟩
  swap
  · exact Changes.run (own := fun _ => True) (.single (.frame s))
  have loaded : (s.elapseBefore after).loading = false :=
    State.loading_of_running (by rw [State.elapseBefore_running]; exact runs)
  have before := (elapse_changes (own := fun _ => True) s after).1
  have ordered (start : LeasesOrdered s) := start.elapseBefore after
  generalize s.elapseBefore after = u at loaded before ordered ⊢
  by_cases due : leaseDue u f phase = true
  · have taken : Changes (fun _ => True) True u (takeLeaseMark f u) := takeLeaseMark_changes f loaded
    rw [if_pos due, reachMark_due due]
    refine ⟨fun each => Changes.keeps (before.trans (taken.trans (takeLeaseMarks_changes (Changes.loaded taken loaded)))) each,
      fun start => ((ordered start).reached fun g => ?_).taken⟩
    rw [takeLeaseMark_lease]
    split
    · rename_i same; rw [same]; exact .inr rfl
    · exact .inl rfl
  · rw [if_neg due]
    exact ⟨fun each => Changes.keeps (before.trans (takeLeaseMarks_changes loaded)) each, fun start => (ordered start).taken⟩

/-- A port's receive state moves. -/
theorem setPort_changes (p : Port) (x : LinkPort) (s : State) : Changes (fun _ => True) False s (s.setPort p x) :=
  .single (.port s trivial x)

theorem ite_changes {own : Port → Prop} {ages : Prop} {c : Prop} [Decidable c] (taken : c → Changes own ages s t) :
    Changes own ages s (if c then t else s) := by
  split
  · exact taken ‹_›
  · exact .refl

theorem exec_unknownRequest (p : Port) (code : Byte) (body : List Byte) (s : State) :
    exec (.unknownRequest p code body) s = .next (if !s.takesFrame p then s
      else s.answering p code (Reply.plain (if s.loading then .busy else .unknownRequest))) := rfl

theorem timerDue_state {b : BranchId} {st : BranchState} (due : timerDue s b st = true) : (s.branch b).state = st := by
  simp only [timerDue, Bool.and_eq_true, decide_eq_true_eq] at due
  exact due.1

theorem ttlDue_state {b : BranchId} (due : ttlDue s b = true) : (s.branch b).state = .flowing := by
  simp only [ttlDue, Bool.and_eq_true, decide_eq_true_eq] at due
  exact due.1.1

/-- Every command outside the catalogue but POWER_ON is a run. -/
theorem event_runs {c : Instr} (unlisted : catalogue c = none) (h : exec c s = .next t) (notPowerOn : c ≠ .powerOn) :
    Run s t := by
  cases c
  case unknownRequest =>
    rw [exec_unknownRequest] at h
    cases h
    split
    · exact Changes.run (own := fun _ => True) .refl
    · exact (setPort_changes _ _ s).run
  case frameDiscarded p _ =>
    refine lineEvent_run (fun u => ?_) h
    unfold discardFrame
    split
    · exact .refl
    · exact setPort_changes _ _ u
  case discardQuiet => exact lineEvent_run (fun u => ite_changes fun _ => setPort_changes _ _ u) h
  case answerEnd => exact lineEvent_run (fun u => ite_changes fun _ => setPort_changes _ _ u) h
  case firstByteOfFrame => exact lineEvent_run (fun u => ite_changes fun _ => setPort_changes _ _ u) h
  case roundStart => exact event_run (fun u _ => ite_changes fun _ => startRound_changes u) h
  case exchangeStart => exact event_run (fun _ _ => nextExchange_changes) h
  case segmentReport => exact event_run (fun _ loaded => takeSegment_changes _ _ loaded) h
  case headReport => exact event_run (fun _ _ => takeHead_changes _) h
  case exchangeMiss => exact event_run (fun _ _ => missExchange_changes) h
  case freeCycleStart => exact event_run (fun u _ => ite_changes fun _ => startCycle_changes u) h
  case lockedCycleStart =>
    exact event_run (fun u _ => ite_changes fun _ => .head (.frame u) (startCycle_changes _)) h
  case mark => exact event_run (fun _ _ => ite_changes fun _ => takeMark_changes) h
  case lossDeadline => exact event_run (fun u _ => ite_changes fun _ => loseLock_changes _ u) h
  case primeWindowExpiry =>
    exact event_run (fun _ _ => ite_changes fun due => primeWindowEnds_changes (timerDue_state due)) h
  case backoffExpiry => exact event_run (fun _ _ => ite_changes fun due => enterPriming_changes (timerDue_state due)) h
  case ttlExpiry => exact event_run (fun _ _ => ite_changes fun due => toSetback_changes (ttlDue_state due)) h
  case freezeExpiry => exact event_run (fun _ _ => freezeEnds_changes) h
  case leaseT1Reached => exact leaseEvent_run (phase := .bound) h
  case leaseT2Reached => exact leaseEvent_run (phase := .renewDue) h
  case leaseLapse => exact leaseEvent_run (phase := .expiring) h
  case switchWindowExpiry => exact event_run (fun _ _ => openingEnds_changes) h
  case closingOldExpiry => exact event_run (fun _ _ => closingOldEnds_changes) h
  case lowPressureExpiry => exact event_run (fun _ loaded => lowPressureEnds_changes _ loaded) h
  case startupWindowExpiry => exact event_run (fun _ _ => startupEnds_changes) h
  case isolateWindowExpiry =>
    exact event_run (fun _ loaded => ite_changes fun due => isolateWindowEnds_changes (timerDue_state due) loaded) h
  case confirmExpiry => exact event_run (fun u _ => ite_changes fun _ => confirmEnds_changes _ u) h
  case parkWindowExpiry => exact event_run (fun _ loaded => parkWindowEnds_changes loaded) h
  case markWriteStart => exact event_run (fun _ _ => startMarkWrite_changes) h
  case markWriteEnd => exact event_run (fun _ _ => markWriteEnds_changes _) h
  case markRetryExpiry => exact event_run (fun _ _ => markRetryEnds_changes) h
  case savePageWriteEnd => exact event_run (fun _ _ => pageWriteEnds_changes _) h
  case powerOn => exact absurd rfl notPowerOn
  case resetNAssert => exact next_run (fun _ => lowerReset_changes fun _ => trivial) h
  case resetNRelease => exact next_run (fun _ => raiseReset_changes fun _ => trivial) h
  case restartReset => exact event_run (fun _ _ => restartNow_changes fun _ => trivial) h
  case storeLoadComplete => exact next_run (fun _ => endLoad_changes (fun _ => trivial) _ _) h
  all_goals cases unlisted

/-- Every command but POWER_ON is a run. -/
theorem exec_run {c : Instr} (h : exec c s = .next t) (notPowerOn : c ≠ .powerOn) : Run s t := by
  cases listed : catalogue c with
  | some q => exact (catalogue_changes listed h).run
  | none => exact event_runs listed h notPowerOn

end Sys2Proof.Machine

/-! ## The invariants of the step -/

namespace Sys2Proof.Machine

open Sys2Proof

variable {s t : State}

/-! ### Steps -/

theorem mem_dueIf {due : Bool} {c d : Instr} : c ∈ dueIf due d ↔ due = true ∧ c = d := by
  unfold dueIf
  split
  · rename_i h; simp [h]
  · rename_i h; simp [h]

theorem powerOn_not_due (s : State) : Instr.powerOn ∉ dueEvents s := by
  simp [dueEvents, dueOfBranch, dueOfFeed, mem_dueIf]

/-- What is taken of several events is one of them, and of any at all one is taken. -/
theorem takenOf_mem {draw : Nat} {cs : List Instr} {c : Instr} (h : takenOf draw cs = some c) : c ∈ cs := by
  unfold takenOf at h
  split at h
  · cases h
  · cases h; exact List.mem_singleton_self _
  · exact List.mem_of_getElem? h

theorem nextEvent_due {c : Instr} (h : nextEvent s = some c) : s.running = true ∧ c ∈ dueEvents s := by
  unfold nextEvent at h
  generalize dueEvents s = cs at h ⊢
  split at h
  · rename_i runs
    exact ⟨runs, takenOf_mem h⟩
  · cases h

/-- A step is a run, but for a POWER_ON that waits at the front of the queue. -/
theorem step_run (h : step s = .next t) :
    (∃ r d, Run { s with pending := r, draws := d } t) ∨
      (s.pending.head? = some .powerOn ∧ ∃ r, exec .powerOn { s with pending := r } = .next t) := by
  unfold step at h
  split at h
  · rename_i c rest waiting
    by_cases powerOn : c = .powerOn
    · subst powerOn
      exact .inr ⟨by rw [waiting]; rfl, rest, h⟩
    · exact .inl ⟨rest, s.draws, exec_run h powerOn⟩
  · unfold idle at h
    split at h
    · rename_i c taken
      refine .inl ⟨s.pending, s.draws + 1, exec_run h ?_⟩
      rintro rfl
      exact powerOn_not_due s (nextEvent_due taken).2
    · cases h
      exact .inl ⟨s.pending, s.draws, Run.elapse s 1⟩

/-- What does not depend on the queue and the draws, is kept by every change and holds after power-on, every step keeps. -/
theorem step_keeps {P : State → Prop} (own : ∀ s r d, P s → P { s with pending := r, draws := d })
    (each : ∀ {mine : Port → Prop} {ages : Prop} {s t : State}, Change mine ages s t → P s → P t)
    (reset : P s → ∀ torn, P (State.poweredOn s.eeprom torn s.resetLow)) (h : step s = .next t) (start : P s) : P t := by
  rcases step_run h with ⟨r, d, run⟩ | ⟨-, r, powered⟩
  · exact run.keeps each (own s r d start)
  · cases powered
    exact own _ _ _ (reset start _)

/-! ### Power-on -/

section

variable (eeprom : List Host.Cell) (torn low : Bool)

@[simp] theorem poweredOn_entry (b : BranchId) : (State.poweredOn eeprom torn low).entry b = MapEntry.default := by
  simp [State.poweredOn, State.entry, Vector.get]

@[simp] theorem poweredOn_branch (b : BranchId) : (State.poweredOn eeprom torn low).branch b = Branch.initial := by
  simp [State.poweredOn, State.branch, Vector.get]

@[simp] theorem poweredOn_pendingPlan (b : BranchId) :
    (State.poweredOn eeprom torn low).pendingPlan b = PlanEntry.default := by
  simp [State.poweredOn, State.pendingPlan, Vector.get]

@[simp] theorem poweredOn_activePlan (b : BranchId) :
    (State.poweredOn eeprom torn low).activePlan b = PlanEntry.default := by
  simp [State.poweredOn, State.activePlan, Vector.get]

@[simp] theorem poweredOn_measure (b : BranchId) :
    (State.poweredOn eeprom torn low).measure b = Measurement.cleared := by
  simp [State.poweredOn, State.measure, Vector.get]

@[simp] theorem poweredOn_segment (z : SegId) :
    (State.poweredOn eeprom torn low).segment z = SegmentRecord.cleared := by
  simp [State.poweredOn, State.segment, Vector.get]

@[simp] theorem poweredOn_drip (b : BranchId) : (State.poweredOn eeprom torn low).drip b = Accumulator.initial := by
  simp [State.poweredOn, State.drip, Vector.get]

@[simp] theorem poweredOn_zone (z : SegId) : (State.poweredOn eeprom torn low).zone z = Zone.initial := by
  simp [State.poweredOn, State.zone, Vector.get]

@[simp] theorem poweredOn_lease (f : Feed) : (State.poweredOn eeprom torn low).lease f = none := by
  cases f <;> rfl

@[simp] theorem poweredOn_feed (f : Feed) : (State.poweredOn eeprom torn low).feed f =
    { inlet := if f = .a then .opened else .closed, failed := false, lowTimer := none, proof := 0 } := by
  cases f <;> rfl

@[simp] theorem poweredOn_port (p : Port) : (State.poweredOn eeprom torn low).port p =
    { rx := .idle, answer := none, flags := 0, mask := BitVec.allOnes 10 } := by
  cases p <;> rfl

end

section

variable {eeprom : List Host.Cell} {torn low : Bool}

theorem poweredOn_tagsDistinct : TagsDistinct (State.poweredOn eeprom torn low) := fun b c _ valid => by
  simp [MapEntry.default] at valid

theorem poweredOn_entriesFit : EntriesFit (State.poweredOn eeprom torn low) := fun b => by
  rw [poweredOn_entry]
  exact MapEntry.default_fits

theorem poweredOn_statesMatchEntries : StatesMatchEntries (State.poweredOn eeprom torn low) := fun b => by
  simp [Branch.initial, MapEntry.default]

theorem poweredOn_recordsAgree : RecordsAgree (State.poweredOn eeprom torn low) := fun b => by
  simp [Branch.agrees, Branch.initial, BranchState.isIsolation]

theorem poweredOn_attemptsFit : AttemptsFit (State.poweredOn eeprom torn low) := fun b => by
  simp [Branch.attemptsFit, Branch.initial]

theorem poweredOn_outputsFit : OutputsFit (State.poweredOn eeprom torn low) := fun b => by
  simp [Branch.outputsFit, Branch.initial, MapEntry.default]

theorem poweredOn_marksMatch : MarksMatch (State.poweredOn eeprom torn low) := fun b => by
  simp [Branch.initial, BranchState.isIsolation]

theorem poweredOn_floorsBelowCaps : FloorsBelowCaps (State.poweredOn eeprom torn low) := fun b => by
  simp [PlanEntry.default]

theorem poweredOn_plansInRange : PlansInRange (State.poweredOn eeprom torn low) := fun b => by
  simp [PlanEntry.inRange, PlanEntry.default]

theorem poweredOn_plansAtRest : PlansAtRest (State.poweredOn eeprom torn low) := fun b _ => by simp

theorem poweredOn_parkedAtRest : ParkedAtRest (State.poweredOn eeprom torn low) :=
  ⟨fun parked => parked.elim nofun nofun, fun _ => rfl⟩

theorem poweredOn_targetsBounded : TargetsBounded (State.poweredOn eeprom torn low) := fun b allots => by
  simp [Branch.initial, BranchState.isAllotting] at allots

theorem poweredOn_measurementsInRange : MeasurementsInRange (State.poweredOn eeprom torn low) :=
  ⟨fun b => by simp [Measurement.cleared], Nat.zero_le _, Nat.zero_le _⟩

theorem poweredOn_linksFit : LinksFit (State.poweredOn eeprom torn low) :=
  ⟨fun z => by rw [poweredOn_segment]; exact Nat.zero_le 2, Nat.zero_le 2⟩

theorem poweredOn_leasesOrdered : LeasesOrdered (State.poweredOn eeprom torn low) := fun f l present => by
  simp at present

theorem poweredOn_inletsAgree : InletsAgree (State.poweredOn eeprom torn low) :=
  ⟨rfl, nofun, nofun, fun h => absurd rfl h, fun _ => ⟨rfl, rfl⟩⟩

theorem poweredOn_feedsAgree : FeedsAgree (State.poweredOn eeprom torn low) := fun f => by simp

theorem poweredOn_dripsBounded : DripsBounded (State.poweredOn eeprom torn low) :=
  ⟨fun b => by simp [Accumulator.initial], fun _ b => by simp [Accumulator.initial]⟩

theorem poweredOn_zonesFit : ZonesFit (State.poweredOn eeprom torn low) := fun z => by
  simp [Zone.fits, Zone.initial]

theorem poweredOn_modesAgree : ModesAgree (State.poweredOn eeprom torn low) := ⟨nofun, nofun, rfl⟩

theorem poweredOn_incidentsFit : IncidentsFit (State.poweredOn eeprom torn low) := by
  simp [IncidentsFit, State.poweredOn]

theorem poweredOn_paramsInRange : ParamsInRange (State.poweredOn eeprom torn low) := Params.default_inRange

theorem poweredOn_storeFits : StoreFits (State.poweredOn eeprom torn low) := ⟨nofun, List.nodup_nil, nofun⟩

end

/-! ### The obligations -/

/-- Settles O54: the values of power-on meet every invariant. -/
theorem resetMeetsTheInvariants : Obligations.ResetMeetsTheInvariants :=
  ⟨poweredOn_tagsDistinct, poweredOn_entriesFit, poweredOn_statesMatchEntries, poweredOn_recordsAgree,
    poweredOn_attemptsFit, poweredOn_plansInRange, poweredOn_outputsFit, poweredOn_marksMatch,
    poweredOn_floorsBelowCaps, poweredOn_targetsBounded, poweredOn_plansAtRest, poweredOn_parkedAtRest,
    poweredOn_measurementsInRange, poweredOn_linksFit, poweredOn_dripsBounded, poweredOn_zonesFit,
    poweredOn_inletsAgree, poweredOn_feedsAgree, poweredOn_leasesOrdered, poweredOn_modesAgree,
    poweredOn_incidentsFit, poweredOn_paramsInRange, poweredOn_storeFits, reset_memory_wf⟩

/-- Settles O55: each invariant is kept by every change, and holds after power-on. -/
theorem theMapAndTheBranchesStayInStep : Obligations.TheMapAndTheBranchesStayInStep := by
  intro s t h
  refine ⟨step_keeps (fun _ _ _ => id) Change.keeps_tagsDistinct (fun _ _ => poweredOn_tagsDistinct) h,
    step_keeps (fun _ _ _ => id) Change.keeps_entriesFit (fun _ _ => poweredOn_entriesFit) h,
    step_keeps (fun _ _ _ => id) Change.keeps_statesMatchEntries (fun _ _ => poweredOn_statesMatchEntries) h,
    step_keeps (fun _ _ _ => id) Change.keeps_recordsAgree (fun _ _ => poweredOn_recordsAgree) h, fun range fits => ?_,
    step_keeps (fun _ _ _ => id) Change.keeps_outputsFit (fun _ _ => poweredOn_outputsFit) h,
    step_keeps (fun _ _ _ => id) Change.keeps_marksMatch (fun _ _ => poweredOn_marksMatch) h⟩
  have both := step_keeps (P := fun s => ParamsInRange s ∧ AttemptsFit s) (fun _ _ _ => id)
    (fun change ⟨range, fits⟩ => ⟨change.keeps_paramsInRange range, change.keeps_attemptsFit range fits⟩)
    (fun _ _ => ⟨poweredOn_paramsInRange, poweredOn_attemptsFit⟩) h ⟨range, fits⟩
  exact both.2

/-- Settles O56: each invariant is kept by every change; the targets with the floors below the caps and the parked racks at
rest. -/
theorem thePlanStaysBounded : Obligations.ThePlanStaysBounded := by
  intro s t h
  refine ⟨step_keeps (fun _ _ _ => id) Change.keeps_floorsBelowCaps (fun _ _ => poweredOn_floorsBelowCaps) h,
    step_keeps (fun _ _ _ => id) Change.keeps_parkedAtRest (fun _ _ => poweredOn_parkedAtRest) h,
    step_keeps (fun _ _ _ => id) Change.keeps_plansAtRest (fun _ _ => poweredOn_plansAtRest) h,
    step_keeps (fun _ _ _ => id) Change.keeps_plansInRange (fun _ _ => poweredOn_plansInRange) h,
    fun floors parked targets => ?_⟩
  have all := step_keeps (P := fun s => FloorsBelowCaps s ∧ ParkedAtRest s ∧ TargetsBounded s) (fun _ _ _ => id)
    (fun change ⟨floors, parked, targets⟩ => ⟨change.keeps_floorsBelowCaps floors, change.keeps_parkedAtRest parked,
      change.keeps_targetsBounded floors parked targets⟩)
    (fun _ _ => ⟨poweredOn_floorsBelowCaps, poweredOn_parkedAtRest, poweredOn_targetsBounded⟩) h
    ⟨floors, parked, targets⟩
  exact all.2.2

/-- Settles O57: each invariant is kept by every change, and holds after power-on. -/
theorem theFieldRecordsStayInRange : Obligations.TheFieldRecordsStayInRange := fun _ _ h =>
  ⟨step_keeps (fun _ _ _ => id) Change.keeps_measurementsInRange (fun _ _ => poweredOn_measurementsInRange) h,
    step_keeps (fun _ _ _ => id) Change.keeps_linksFit (fun _ _ => poweredOn_linksFit) h,
    step_keeps (fun _ _ _ => id) Change.keeps_dripsBounded (fun _ _ => poweredOn_dripsBounded) h,
    step_keeps (fun _ _ _ => id) Change.keeps_zonesFit (fun _ _ => poweredOn_zonesFit) h⟩

/-- The leases stay in order over every step, though they age in it and reach their marks (R105). -/
theorem step_leasesOrdered (h : step s = .next t) (ordered : LeasesOrdered s) : LeasesOrdered t := by
  rcases step_run h with ⟨r, d, run⟩ | ⟨-, r, powered⟩
  · exact run.leases ordered
  · cases powered
    exact poweredOn_leasesOrdered (eeprom := s.eeprom) (torn := s.imageTorn || s.store.save.isSome) (low := s.resetLow)

/-- Settles O58: the feeds' invariants are kept by every change, the leases' by every run. -/
theorem theFeedsAndLeasesStayInStep : Obligations.TheFeedsAndLeasesStayInStep := by
  intro s t h
  refine ⟨fun agree => ?_, step_keeps (fun _ _ _ => id) Change.keeps_feedsAgree (fun _ _ => poweredOn_feedsAgree) h,
    step_leasesOrdered h⟩
  have kept : InletsAgree t :=
    step_keeps (fun _ _ _ => id) Change.keeps_inletsAgree (fun _ _ => poweredOn_inletsAgree) h agree
  exact ⟨kept, t.activeFeed, kept.1⟩

/-- Settles O59: each invariant is kept by every change, and holds after power-on. -/
theorem modesAndIncidentsStayInBounds : Obligations.ModesAndIncidentsStayInBounds := fun _ _ h =>
  ⟨step_keeps (fun _ _ _ => id) Change.keeps_modesAgree (fun _ _ => poweredOn_modesAgree) h,
    step_keeps (fun _ _ _ => id) Change.keeps_incidentsFit (fun _ _ => poweredOn_incidentsFit) h⟩

/-- Settles O60: each invariant is kept by every change; the EEPROM's with the store's. -/
theorem theParametersAndTheStoreStayInBounds : Obligations.TheParametersAndTheStoreStayInBounds := by
  intro s t h
  refine ⟨step_keeps (fun _ _ _ => id) Change.keeps_paramsInRange (fun _ _ => poweredOn_paramsInRange) h,
    step_keeps (fun _ _ _ => id) Change.keeps_storeFits (fun _ _ => poweredOn_storeFits) h,
    fun fits wf => ?_, fun fits a outside => ?_⟩
  · have both := step_keeps (P := fun s => StoreFits s ∧ Memory.wf s = true) (fun _ _ _ => id)
      (fun change ⟨fits, wf⟩ => ⟨change.keeps_storeFits fits, change.keeps_memoryWf fits wf⟩)
      (fun ⟨_, wf⟩ _ => ⟨poweredOn_storeFits, wf⟩) h ⟨fits, wf⟩
    exact both.2
  · have both := step_keeps (P := fun u => StoreFits u ∧ readByte u.eeprom a = readByte s.eeprom a) (fun _ _ _ => id)
      (fun change ⟨fits, same⟩ => ⟨change.keeps_storeFits fits, (change.readByte_outside fits outside).trans same⟩)
      (fun ⟨_, same⟩ _ => ⟨poweredOn_storeFits, same⟩) h ⟨fits, rfl⟩
    exact both.2

theorem exec_lockFeed (p : Port) (body : List Byte) (s : State) :
    exec (.lockFeed p body) s = request p 0x25 [0] [.rm] body lockFeed s := rfl

/-- Settles O33: no change clears the lock, and every step but that of a POWER_ON is a run of changes. -/
theorem theFeedLockIsSetForGood : Obligations.TheFeedLockIsSetForGood := by
  refine ⟨fun s ready => ?_, fun s t locked other h => ?_⟩
  · rw [exec_lockFeed, request_handled ready (by simp) (by simp)]
    rfl
  · rcases step_run h with ⟨r, d, run⟩ | ⟨front, -⟩
    · exact run.keeps (P := fun s => s.feedLock = true) Change.keeps_feedLock locked
    · exact absurd front other

/-- Every command answers a next state: none faults and none is refused. -/
theorem exec_next (c : Instr) (s : State) : ∃ t, exec c s = .next t := by cases c <;> exact ⟨_, rfl⟩

/-- Settles O3: every arm answers a next state, and no change touches the queue. -/
theorem everyCommandAnswersANextState : Obligations.EveryCommandAnswersANextState := by
  intro c s
  obtain ⟨t, h⟩ := exec_next c s
  refine ⟨t, h, ?_⟩
  by_cases powerOn : c = .powerOn
  · subst powerOn
    cases h
    rfl
  · exact (exec_run h powerOn).keeps (P := fun u => u.pending = s.pending)
      (fun change same => change.pending.trans same) rfl

/-- Settles O6: a request's changes write no port but its own, and flags they set stay set. -/
theorem aRequestTouchesOnlyItsOwnPort : Obligations.ARequestTouchesOnlyItsOwnPort := by
  intro c q s t p listed h other
  exact (catalogue_changes listed h).keeps (P := fun u => (s.port p).onlyFlagged (u.port p))
    (fun change kept => LinkPort.onlyFlagged_trans kept (change.onlyFlagged other)) (LinkPort.onlyFlagged_refl _)

/-- Settles O1: the first branch of `step`. -/
theorem stepTakesTheFront : Obligations.StepTakesTheFront := by
  intro c rest s waiting
  unfold step
  rw [waiting]

theorem step_idle (idle' : s.pending = []) : step s = idle exec s := by
  unfold step
  rw [idle']

/-- Of any events at all that are due one is taken. -/
theorem takenOf_some (draw : Nat) {cs : List Instr} (some' : cs ≠ []) : ∃ c, takenOf draw cs = some c := by
  unfold takenOf
  split
  · exact absurd rfl some'
  · exact ⟨_, rfl⟩
  · rename_i c d rest
    have within : Config.takenFirst draw % (rest.length + 2) < (c :: d :: rest).length := Nat.mod_lt _ (Nat.succ_pos _)
    exact ⟨_, List.getElem?_eq_getElem within⟩

/-- Settles O2: an idle step by what is due. -/
theorem anIdleStepTakesADueEvent : Obligations.AnIdleStepTakesADueEvent := by
  intro s none
  rw [step_idle none]
  unfold idle
  refine ⟨fun stopped => ?_, fun runs quiet => ?_, fun runs due => ?_⟩
  · simp only [nextEvent, stopped, Bool.false_eq_true, if_false]
  · simp only [nextEvent, runs, if_true, quiet, takenOf]
  · obtain ⟨c, taken⟩ := takenOf_some s.draws due
    have next : nextEvent s = some c := (if_pos runs).trans taken
    exact ⟨c, takenOf_mem taken, by rw [next]⟩

/-- Settles O53: the values of power-on, record by record. -/
theorem resetLeavesItsValues : Obligations.ResetLeavesItsValues := by
  refine ⟨rfl, fun eeprom torn low => ⟨⟨rfl, ?_, rfl, rfl, rfl⟩, fun p => ?_, fun b => ?_, fun z => ?_,
    ⟨rfl, rfl, rfl, rfl, rfl, rfl, rfl, rfl, rfl⟩, fun f => ?_, ⟨rfl, rfl, rfl⟩, rfl, rfl⟩⟩
  · simp [State.uptime, State.poweredOn]
  · rw [poweredOn_port]
    exact ⟨rfl, rfl, rfl, rfl⟩
  · rw [poweredOn_branch, poweredOn_measure, poweredOn_pendingPlan, poweredOn_activePlan, poweredOn_drip]
    exact ⟨rfl, rfl, rfl, rfl, rfl, rfl, rfl, rfl, rfl⟩
  · rw [poweredOn_segment, poweredOn_zone]
    exact ⟨rfl, rfl, rfl, rfl⟩
  · rw [poweredOn_lease, poweredOn_feed]
    exact ⟨rfl, rfl, rfl, rfl⟩

end Sys2Proof.Machine

/-! ## Requests: the checks before the owning rule (R184), addressing (R6, R14), and the reads -/

namespace Sys2Proof.Machine

open Sys2Proof

/-! ### The checks of R184 -/

section Checks

variable {p : Port} {code : Byte} {lengths : List Nat} {allowed : List Port} {body : List Byte} {h : Handler} {s : State}

theorem request_lost (lost : s.takesFrame p = false) : request p code lengths allowed body h s = .next s := by
  simp [request, lost]

theorem request_busy (takes : s.takesFrame p = true) (loading : s.loading = true) :
    request p code lengths allowed body h s = .next (s.answering p code { status := .busy, body := [] }) := by
  simp [request, takes, loading, Reply.plain]

theorem request_badLength (ready : Ready s p) (wrong : body.length ∉ lengths) :
    request p code lengths allowed body h s = .next (s.answering p code { status := .badLength, body := [] }) := by
  simp [request, ready.1, ready.2, wrong, Reply.plain]

/-- A request whose handler refuses it changes nothing but the port that answers. -/
theorem request_refused {st : Status} (ready : Ready s p) (length : body.length ∈ lengths) (permitted : p ∈ allowed)
    (refused : h s = refuse st s) :
    request p code lengths allowed body h s = .next (s.answering p code { status := st, body := [] }) := by
  rw [request_handled ready length permitted, refused]
  rfl

end Checks

/-- How a request of the catalogue is addressed: its handler begins with the lookup that its row names (R6, R14, R184). -/
structure Addressed (c : Instr) (h : Handler) : Prop where
  tag : ∀ n ∈ tagNamed c, ∃ g, ∀ s, h s = bySlotTag n g s
  branch : ∀ n ∈ branchNamed c, ∃ g, ∀ s, h s = byBranch n g s
  zone : ∀ n ∈ zoneNamed c, ∃ g, ∀ s, h s = byZone n g s
  form : ∀ n ∈ formNamed c, ∃ m g, ∀ s, h s = byForm n m g s

theorem Addressed.plain {c : Instr} {h : Handler} (tag : tagNamed c = none) (branch : branchNamed c = none)
    (zone : zoneNamed c = none) (form : formNamed c = none) : Addressed c h :=
  ⟨by simp [tag], by simp [branch], by simp [zone], by simp [form]⟩

theorem Addressed.byTag {c : Instr} {n : Nat} (g : BranchId → Handler) (tag : tagNamed c = some n)
    (branch : branchNamed c = none) (zone : zoneNamed c = none) (form : formNamed c = none) :
    Addressed c (bySlotTag n g) :=
  ⟨by simpa [tag] using ⟨g, fun _ => rfl⟩, by simp [branch], by simp [zone], by simp [form]⟩

theorem Addressed.byIndex {c : Instr} {n : Nat} (g : BranchId → Handler) (tag : tagNamed c = none)
    (branch : branchNamed c = some n) (zone : zoneNamed c = none) (form : formNamed c = none) :
    Addressed c (byBranch n g) :=
  ⟨by simp [tag], by simpa [branch] using ⟨g, fun _ => rfl⟩, by simp [zone], by simp [form]⟩

theorem Addressed.byZone {c : Instr} {n : Nat} (g : SegId → Handler) (tag : tagNamed c = none)
    (branch : branchNamed c = none) (zone : zoneNamed c = some n) (form : formNamed c = none) :
    Addressed c (Machine.byZone n g) :=
  ⟨by simp [tag], by simp [branch], by simpa [zone] using ⟨g, fun _ => rfl⟩, by simp [form]⟩

/-- A read by form: 0 names a slot tag, 1 a branch index. -/
theorem Addressed.byForm {c : Instr} {form n : Nat} (g : BranchId → Handler)
    (tag : tagNamed c = if form = 0 then some n else none) (branch : branchNamed c = if form = 1 then some n else none)
    (zone : zoneNamed c = none) (named : formNamed c = some form) : Addressed c (Machine.byForm form n g) := by
  refine ⟨fun m named => ?_, fun m named => ?_, by simp [zone], by simpa [named] using ⟨n, g, fun _ => rfl⟩⟩
  · rw [tag] at named
    split at named
    · rename_i zero
      cases named
      exact ⟨g, fun s => by simp [Machine.byForm, zero]⟩
    · cases named
  · rw [branch] at named
    split at named
    · rename_i one
      cases named
      exact ⟨g, fun s => by simp [Machine.byForm, one]⟩
    · cases named

/-- Every request of the catalogue runs the checks of R184 with its row, then its handler, which is addressed as its row
says. -/
theorem exec_catalogued {c : Instr} {q : Catalogued} (listed : catalogue c = some q) :
    ∃ h : Handler, (∀ s, exec c s = request q.port q.code q.lengths q.ports q.body h s) ∧ Addressed c h := by
  cases c <;> cases listed
  case admitBranch | release | pin | unpin | setDemand | setLimits =>
    exact ⟨_, fun _ => rfl, .byTag _ rfl rfl rfl rfl⟩
  case mapWrite | mapClear | isolateBranch => exact ⟨_, fun _ => rfl, .byIndex _ rfl rfl rfl rfl⟩
  case readSegment | isolateZone | restoreZone | clearZone | setZonePolicy =>
    exact ⟨_, fun _ => rfl, .byZone _ rfl rfl rfl rfl⟩
  case readBranch | readPlan => exact ⟨_, fun _ => rfl, .byForm _ rfl rfl rfl rfl⟩
  case restoreBranch p body =>
    cases p with
    | rm => exact ⟨_, fun _ => rfl, .byTag (n := at1 body 0) restoreByRack rfl rfl rfl rfl⟩
    | sp => exact ⟨_, fun _ => rfl, .byIndex (n := at1 body 0) restoreBranch rfl rfl rfl rfl⟩
    | ua | ub => exact ⟨_, fun _ => rfl, .plain rfl rfl rfl rfl⟩
  all_goals exact ⟨_, fun _ => rfl, .plain rfl rfl rfl rfl⟩

/-- Settles O4: the checks of `request` in their order, for every row of the catalogue. -/
theorem requestsPassTheirChecksInOrder : Obligations.RequestsPassTheirChecksInOrder := by
  intro c q s listed
  obtain ⟨h, run, -⟩ := exec_catalogued listed
  rw [run]
  exact ⟨request_lost, request_busy, request_badLength, fun ready length barred =>
    request_notPermitted ready length barred⟩

/-! ### The lookup of a slot tag (R6) -/

theorem findTag_some {s : State} {n : Nat} {b : BranchId} (h : findTag s n = some b) :
    ∃ t : SlotTag, (s.entry b).slotTag = some t ∧ t.val = n := by
  have found := List.find?_some h
  split at found
  · rename_i t carried
    exact ⟨t, carried, by simpa using found⟩
  · cases found

theorem findTag_none {s : State} {n : Nat} :
    findTag s n = none ↔ ∀ (b : BranchId) (t : SlotTag), (s.entry b).slotTag = some t → t.val ≠ n := by
  simp only [findTag, allBranches, List.find?_eq_none, List.mem_finRange, forall_const]
  refine forall_congr' fun b => ?_
  cases (s.entry b).slotTag <;> simp

/-- With distinct tags (R11) the lookup finds the one branch whose entry carries the tag. -/
theorem findTag_distinct {s : State} {b : BranchId} {t : SlotTag} (distinct : TagsDistinct s)
    (carried : (s.entry b).slotTag = some t) : findTag s t.val = some b := by
  cases found : findTag s t.val with
  | none => exact absurd rfl (findTag_none.mp found b t carried)
  | some c =>
    obtain ⟨t', carried', same⟩ := findTag_some found
    obtain rfl := Fin.ext same
    by_contra other
    exact distinct b c (fun h => other (by rw [h])) (by simp [carried]) (carried.trans carried'.symm)

/-- Settles O5: the addressing checks of every row, and the lookup both ways. -/
theorem addressesAreCheckedBeforeTheOwningRule : Obligations.AddressesAreCheckedBeforeTheOwningRule := by
  refine ⟨fun c q s listed ready length permitted => ?_, fun s n => ⟨fun b => findTag_some, findTag_none, ?_⟩⟩
  · obtain ⟨h, run, addressed⟩ := exec_catalogued listed
    rw [run]
    refine ⟨fun n named unknown => ?_, fun n named far => ?_, fun n named far => ?_, fun n named far => ?_⟩ <;>
      refine request_refused ready length permitted ?_
    · obtain ⟨g, looked⟩ := addressed.tag n named
      rw [looked, bySlotTag, unknown]
    · obtain ⟨g, looked⟩ := addressed.branch n named
      rw [looked, byBranch, dif_neg (by omega)]
    · obtain ⟨g, looked⟩ := addressed.zone n named
      rw [looked, byZone, dif_neg (by omega)]
    · obtain ⟨m, g, looked⟩ := addressed.form n named
      rw [looked, byForm, if_neg (by omega), if_neg (by omega)]
  · rintro distinct b t carried rfl
    exact findTag_distinct distinct carried

/-! ### The reads (R187 to R189) -/

theorem bySlotTag_carried {s : State} {b : BranchId} {n : Nat} (h : BranchId → Handler) (carries : Carries s b n) :
    bySlotTag n h s = h b s := by
  unfold Carries at carries
  unfold bySlotTag
  rw [carries]

theorem byZone_val (z : SegId) (h : SegId → Handler) (s : State) : byZone z.val h s = h z s := dif_pos z.isLt

theorem at1_zoneByte (z : SegId) (rest : List Byte) : at1 (BitVec.ofNat 8 z.val :: rest) 0 = z.val := by
  have := z.isLt
  simp [at1]
  omega

/-- A request whose handler accepts it. -/
theorem request_accepted {p : Port} {code : Byte} {lengths : List Nat} {allowed : List Port} {body : List Byte} {h : Handler}
    {s t : State} {r : Reply} (ready : Ready s p) (length : body.length ∈ lengths) (permitted : p ∈ allowed)
    (accepted : h s = (r, t)) : request p code lengths allowed body h s = .next (t.answering p code r) := by
  rw [request_handled ready length permitted, accepted]

/-- A read with its handler accepted: OK with its record, nothing else changed. -/
theorem request_reads {p : Port} {code : Byte} {lengths : List Nat} {body : List Byte} {h : Handler} {s : State}
    {f : State → List Byte} (ready : Ready s p) (length : body.length ∈ lengths) (reads : h s = reading f s) :
    request p code lengths anyPort body h s = .next (s.answering p code { status := .ok, body := f s }) :=
  request_accepted ready length (mem_anyPort p) reads

theorem byForm_tag {s : State} {b : BranchId} {tag : Byte} (h : BranchId → Handler) (carries : Carries s b tag.toNat) :
    byForm (at1 [0, tag] 0) (at1 [0, tag] 1) h s = h b s := by
  change bySlotTag tag.toNat h s = h b s
  exact bySlotTag_carried h carries

theorem byForm_index (s : State) (b : BranchId) (h : BranchId → Handler) :
    byForm (at1 [1, BitVec.ofNat 8 b.val] 0) (at1 [1, BitVec.ofNat 8 b.val] 1) h s = h b s := by
  have number : at1 [1, BitVec.ofNat 8 b.val] 1 = b.val := at1_branchByte b []
  rw [number]
  exact byBranch_val b h s

/-- Settles O8: each read is a request whose handler is `reading` of its record. -/
theorem readsAnswerTheirRecord : Obligations.ReadsAnswerTheirRecord := by
  intro s p ready
  refine ⟨request_reads ready (by simp) rfl, request_reads ready (by simp) rfl, request_reads ready (by simp) rfl,
    fun start => request_reads ready (by simp) rfl, fun z => ?_, fun b => ⟨?_, ?_⟩, fun tag b carries => ⟨?_, ?_⟩⟩
  · refine request_reads (f := fun t => segmentAnswer t z) ready (by simp) ?_
    rw [at1_zoneByte, byZone_val]
  · exact request_reads (f := fun t => branchRecord t b) ready (by simp) (byForm_index s b _)
  · exact request_reads (f := fun t => planRecord t b) ready (by simp) (byForm_index s b _)
  · exact request_reads (f := fun t => branchRecord t b) ready (by simp) (byForm_tag _ carries)
  · exact request_reads (f := fun t => planRecord t b) ready (by simp) (byForm_tag _ carries)

end Sys2Proof.Machine

/-! ## The requests of one branch: MAP_WRITE, ADMIT, RELEASE, PIN, UNPIN, SET_DEMAND and SET_LIMITS -/

namespace Sys2Proof.Machine

open Sys2Proof

/-- A request addressed by the slot tag in its first byte reaches the branch that carries it. -/
theorem request_tagged {p : Port} {code : Byte} {lengths : List Nat} {allowed : List Port} {body : List Byte} {s : State}
    {b : BranchId} {g : BranchId → Handler} (ready : Ready s p) (length : body.length ∈ lengths) (permitted : p ∈ allowed)
    (carries : Carries s b (at1 body 0)) :
    request p code lengths allowed body (bySlotTag (at1 body 0) g) s = .next ((g b s).2.answering p code (g b s).1) := by
  rw [request_handled ready length permitted, bySlotTag_carried g carries]

/-! ### Saturation over the numbers of a body -/

theorem saturate_natCast {lo hi : Nat} (range : lo ≤ hi) (n : Nat) : saturate lo hi (n : Int) = max lo (min hi n) := by
  have := saturate_eq_max_min range (n : Int)
  omega

theorem outOfRange_natCast (lo hi n : Nat) : outOfRange lo hi (n : Int) = decide (n < lo ∨ hi < n) := by
  simp [outOfRange]

theorem Reply.written_decide (P : Prop) [Decidable P] :
    Reply.written (decide P) = { status := if P then .clamped else .ok, body := [] } := by
  simp [Reply.written, Reply.plain]

theorem MapEntry.startTtl_eq (e : MapEntry) :
    e.startTtl = if e.ttlPolicy = .none then none else some (Timer.start e.ttlTime) := by
  unfold MapEntry.startTtl
  cases e.ttlPolicy <;> rfl

theorem at2_tagged {n : Nat} (tag : Byte) (rest : List Byte) (fits : n < 65536) : at2 (tag :: (byte2 n ++ rest)) 1 = n :=
  at2_byte2 fits

/-! ### MAP_WRITE (R8 to R10) -/

theorem exec_mapWrite (p : Port) (body : List Byte) (s : State) :
    exec (.mapWrite p body) s = request p 0x10 [10] [.rm] body (byBranch (at1 body 0) (mapWrite body)) s := rfl

theorem mapWrite_saving {s : State} (body : List Byte) (b : BranchId) (saving : s.store.save ≠ none) :
    mapWrite body b s = refuse .busy s :=
  if_pos (Option.isSome_iff_ne_none.mpr saving)

theorem mapWrite_wrongState {s : State} {b : BranchId} (body : List Byte) (idle : s.store.save = none)
    (mapped : (s.branch b).state ≠ .unmapped) (held : (s.branch b).state ≠ .vacant) :
    mapWrite body b s = refuse .wrongState s := by
  simp [mapWrite, idle, mapped, held]

theorem mapWrite_badValue {s : State} {b : BranchId} {body : List Byte} (idle : s.store.save = none)
    (allowed : (s.branch b).state = .unmapped ∨ (s.branch b).state = .vacant) (bad : entryOfBytes body 1 = none) :
    mapWrite body b s = refuse .badValue s := by
  have state : ¬ ((s.branch b).state ≠ .unmapped ∧ (s.branch b).state ≠ .vacant) := by tauto
  simp only [mapWrite, idle, state, bad, Option.isSome_none, Bool.false_eq_true, if_false]

theorem mapWrite_entry {s : State} {b : BranchId} {body : List Byte} {e : MapEntry} {clamped : Bool}
    (idle : s.store.save = none) (allowed : (s.branch b).state = .unmapped ∨ (s.branch b).state = .vacant)
    (made : entryOfBytes body 1 = some (e, clamped)) :
    mapWrite body b s =
      if tagTaken s b e.slotTag then refuse .duplicateTag s else (Reply.written clamped, writeEntry b e s) := by
  have state : ¬ ((s.branch b).state ≠ .unmapped ∧ (s.branch b).state ≠ .vacant) := by tauto
  simp only [mapWrite, idle, state, made, Option.isSome_none, Bool.false_eq_true, if_false]

theorem boolOfCode_large {n : Nat} (large : 2 ≤ n) : boolOfCode n = none := by
  rw [boolOfCode, if_neg (by omega), if_neg (by omega)]

theorem authorityOfCode_large {n : Nat} (large : 2 ≤ n) : authorityOfCode n = none := by
  rw [authorityOfCode, if_neg (by omega), if_neg (by omega)]

theorem ttlPolicyOfCode_large {n : Nat} (large : 3 ≤ n) : ttlPolicyOfCode n = none := by
  rw [ttlPolicyOfCode, if_neg (by omega), if_neg (by omega), if_neg (by omega)]

theorem boolOfCode_small {n : Nat} (small : n < 2) : ∃ x, boolOfCode n = some x := by
  interval_cases n <;> exact ⟨_, rfl⟩

theorem authorityOfCode_small {n : Nat} (small : n < 2) : ∃ x, authorityOfCode n = some x := by
  interval_cases n <;> exact ⟨_, rfl⟩

theorem ttlPolicyOfCode_small {n : Nat} (small : n < 3) : ∃ x, ttlPolicyOfCode n = some x := by
  interval_cases n <;> exact ⟨_, rfl⟩

/-- A choice code outside its list or a tag above 127 makes no entry (R8). -/
theorem entryOfBytes_none {body : List Byte}
    (bad : 128 ≤ at1 body 1 ∨ 2 ≤ at1 body 2 ∨ 2 ≤ at1 body 3 ∨ 3 ≤ at1 body 7) : entryOfBytes body 1 = none := by
  unfold entryOfBytes
  obtain tag | auto | authority | policy := bad
  · rw [slotTagOf, dif_neg (by omega)]
  · rw [boolOfCode_large auto]
    split <;> simp_all
  · rw [authorityOfCode_large authority]
    split <;> simp_all
  · rw [ttlPolicyOfCode_large policy]
    split <;> simp_all

/-- Bytes with every choice code in its list make an entry that carries the tag of their tag byte. -/
theorem entryOfBytes_tag {body : List Byte} {tag : SlotTag} (auto : at1 body 2 < 2) (authority : at1 body 3 < 2)
    (policy : at1 body 7 < 3) (carried : tag.val = at1 body 1) :
    ∃ e clamped, entryOfBytes body 1 = some (e, clamped) ∧ e.slotTag = some tag := by
  obtain ⟨x, autoX⟩ := boolOfCode_small auto
  obtain ⟨y, authorityY⟩ := authorityOfCode_small authority
  obtain ⟨z, policyZ⟩ := ttlPolicyOfCode_small policy
  have tagged : slotTagOf (at1 body 1) = some tag := by
    rw [← carried, slotTagOf, dif_pos tag.isLt]
  exact ⟨_, _, by simp only [entryOfBytes, tagged, autoX, authorityY, policyZ]; rfl, rfl⟩

/-- The bytes of `mapWriteBody` carry the entry of `writtenEntry` (R9, R185). -/
theorem entryOfBytes_mapWriteBody {b : BranchId} {tag : SlotTag} {auto : Bool} {authority : Authority} {gain prime time : Nat}
    {policy : TtlPolicy} (gainFits : gain < 256) (primeFits : prime < 65536) (timeFits : time < 65536) :
    entryOfBytes (mapWriteBody b tag auto authority gain prime policy time) 1 =
      some (writtenEntry tag auto authority gain prime policy time,
        decide (gain = 0 ∨ prime < 50 ∨ 1000 < prime ∨ time < 50 ∨ 36000 < time)) := by
  have tagByte : slotTagOf (at1 (mapWriteBody b tag auto authority gain prime policy time) 1) = some tag := by
    have read : at1 (mapWriteBody b tag auto authority gain prime policy time) 1 = tag.val :=
      (BitVec.toNat_ofNat _ _).trans (Nat.mod_eq_of_lt (by omega))
    rw [read, slotTagOf, dif_pos tag.isLt]
  have autoByte : boolOfCode (at1 (mapWriteBody b tag auto authority gain prime policy time) 2) = some auto := by
    cases auto <;> rfl
  have authorityByte : authorityOfCode (at1 (mapWriteBody b tag auto authority gain prime policy time) 3) = some authority := by
    cases authority <;> rfl
  have policyByte : ttlPolicyOfCode (at1 (mapWriteBody b tag auto authority gain prime policy time) 7) = some policy := by
    cases policy <;> rfl
  have gainByte : at1 (mapWriteBody b tag auto authority gain prime policy time) 4 = gain :=
    (BitVec.toNat_ofNat _ _).trans (Nat.mod_eq_of_lt gainFits)
  have primeBytes : at2 (mapWriteBody b tag auto authority gain prime policy time) 5 = prime := at2_byte2 primeFits
  have timeBytes : at2 (mapWriteBody b tag auto authority gain prime policy time) 8 = time := at2_byte2 timeFits
  unfold entryOfBytes
  rw [tagByte, autoByte, authorityByte, policyByte, gainByte, primeBytes, timeBytes]
  have gainIn : gainRange gain = max 1 gain := by
    rw [gainRange, saturate_natCast (by decide)]; omega
  have primeIn : primeRange prime = max 50 (min prime 1000) := by
    rw [primeRange, saturate_natCast (by decide)]; omega
  have timeIn : ttlRange time = max 50 (min time 36000) := by
    rw [ttlRange, saturate_natCast (by decide)]; omega
  simp only [gainIn, primeIn, timeIn, writtenEntry, Option.some.injEq, Prod.mk.injEq, true_and, decide_eq_decide]
  omega

/-- On RM ten bytes whose first is a branch's index reach MAP_WRITE's own checks. -/
theorem exec_mapWrite_branch {s : State} {b : BranchId} {body : List Byte} (ready : Ready s .rm) (length : body.length = 10)
    (index : at1 body 0 = b.val) :
    exec (.mapWrite .rm body) s = .next ((mapWrite body b s).2.answering .rm 0x10 (mapWrite body b s).1) := by
  rw [exec_mapWrite, request_handled ready (by simp [length]) (by simp), index, byBranch_val]

/-- Settles O11: MAP_WRITE's own checks, each decided, and the entry that its bytes carry. -/
theorem mapWriteIsCheckedThenWritten : Obligations.MapWriteIsCheckedThenWritten := by
  refine ⟨fun s b body ready length index => ?refusals, fun s b tag auto authority gain prime time policy ready gainFits
    primeFits timeFits idle allowed free => ?written⟩
  case refusals =>
    rw [exec_mapWrite_branch ready length index]
    refine ⟨fun saving => ?busy, fun idle mapped held => ?wrongState, fun idle allowed bad => ?badValue,
      fun idle allowed auto authority policy => ?duplicate⟩
    case busy => rw [mapWrite_saving body b saving]; rfl
    case wrongState => rw [mapWrite_wrongState body idle mapped held]; rfl
    case badValue => rw [mapWrite_badValue idle allowed (entryOfBytes_none bad)]; rfl
    case duplicate =>
      rintro ⟨c, tag, other, carried, same⟩
      obtain ⟨e, clamped, made, tagged⟩ := entryOfBytes_tag auto authority policy same
      have taken : tagTaken s b e.slotTag = true := tagTaken_iff.mpr (by simpa [tagged] using ⟨c, other, carried⟩)
      rw [mapWrite_entry idle allowed made, if_pos taken]
      rfl
  case written =>
    have index : at1 (mapWriteBody b tag auto authority gain prime policy time) 0 = b.val := at1_branchByte b _
    have free : tagTaken s b (some tag) = false := by
      rw [Bool.eq_false_iff, Ne, tagTaken_iff]
      rintro ⟨-, c, other, carried⟩
      exact free c other carried
    rw [exec_mapWrite_branch ready rfl index,
      mapWrite_entry idle allowed (entryOfBytes_mapWriteBody gainFits primeFits timeFits)]
    simp only [writtenEntry, free, Bool.false_eq_true, if_false, Reply.written_decide]
    rfl

/-! ### ADMIT (R40, R42) -/

theorem exec_admitBranch {s : State} {b : BranchId} {tag : Byte} (ready : Ready s .rm) (carries : Carries s b tag.toNat) :
    exec (.admitBranch .rm [tag]) s = .next ((admitBranch b s).2.answering .rm 0x12 (admitBranch b s).1) :=
  request_tagged (g := admitBranch) (body := [tag]) ready (by simp) (by simp) carries

theorem admitBranch_mode {s : State} (b : BranchId) (barred : s.mode ≠ .run ∨ s.faultHold ≠ none) :
    admitBranch b s = refuse .mode s := by
  unfold admitBranch
  rw [if_pos (by simpa [Option.isSome_iff_ne_none] using barred)]

theorem admitBranch_wet {s : State} {b : BranchId} (run : s.mode = .run) (calm : s.faultHold = none)
    (wet : (s.zone (zoneOf b)).state = .wet) : admitBranch b s = refuse .zoneWet s := by
  simp [admitBranch, run, calm, wet]

theorem admitBranch_wrongState {s : State} {b : BranchId} (run : s.mode = .run) (calm : s.faultHold = none)
    (dry : (s.zone (zoneOf b)).state ≠ .wet) (held : (s.branch b).state ≠ .vacant) (flows : (s.branch b).state ≠ .noflow) :
    admitBranch b s = refuse .wrongState s := by
  simp [admitBranch, run, calm, dry, held, flows]

theorem admitBranch_primes {s : State} {b : BranchId} (run : s.mode = .run) (calm : s.faultHold = none)
    (dry : (s.zone (zoneOf b)).state ≠ .wet) (idle : (s.branch b).state = .vacant ∨ (s.branch b).state = .noflow) :
    admitBranch b s = (Reply.plain .ok, enterPriming b 1 s) := by
  have state : ¬ ((s.branch b).state ≠ .vacant ∧ (s.branch b).state ≠ .noflow) := by tauto
  simp [admitBranch, run, calm, dry, state]

/-- Settles O13: the three checks in their order, and the entry into PRIMING. -/
theorem admitIsCheckedThenPrimes : Obligations.AdmitIsCheckedThenPrimes := by
  refine ⟨fun s b tag ready carries => ?_, fun s b tag ready carries run calm dry idle => ?_⟩ <;>
    rw [exec_admitBranch ready carries]
  · refine ⟨fun barred => ?_, fun run calm wet => ?_, fun run calm dry held flows => ?_⟩
    · rw [admitBranch_mode b barred]; rfl
    · rw [admitBranch_wet run calm wet]; rfl
    · rw [admitBranch_wrongState run calm dry held flows]; rfl
  · rw [admitBranch_primes run calm dry idle]; rfl

/-! ### RELEASE (R56, R57) -/

theorem exec_release {s : State} {b : BranchId} {tag : Byte} (ready : Ready s .rm) (carries : Carries s b tag.toNat) :
    exec (.release .rm [tag]) s = .next ((release b s).2.answering .rm 0x13 (release b s).1) :=
  request_tagged (g := release) (body := [tag]) ready (by simp) (by simp) carries

/-- Settles O14: the states of RELEASE are the admitted ones. -/
theorem releaseRestsTheBranch : Obligations.ReleaseRestsTheBranch := by
  intro s b tag ready carries
  rw [exec_release ready carries]
  refine ⟨fun held => ?_, fun other => ?_⟩
  · rw [release, if_pos ((BranchState.isAdmitted_iff _).mpr held)]
    rfl
  · have unheld : ¬ (s.branch b).state.isAdmitted = true := by
      simp only [List.mem_cons, List.not_mem_nil, or_false] at other
      rcases other with h | h | h | h | h <;> simp [h, BranchState.isAdmitted]
    rw [release, if_neg unheld]
    rfl

/-! ### PIN and UNPIN (R54, R55) -/

section Pinning

variable {s : State} {b : BranchId} {position : Nat}

theorem exec_pin {tag : Byte} (ready : Ready s .rm) (carries : Carries s b tag.toNat) (fits : position < 65536) :
    exec (.pin .rm (tag :: byte2 position)) s = .next ((pin position b s).2.answering .rm 0x14 (pin position b s).1) := by
  have read : at2 (tag :: byte2 position) 1 = position := at2_byte2 fits
  have run : exec (.pin .rm (tag :: byte2 position)) s =
      .next ((pin (at2 (tag :: byte2 position) 1) b s).2.answering .rm 0x14 (pin (at2 (tag :: byte2 position) 1) b s).1) :=
    request_tagged (g := pin (at2 (tag :: byte2 position) 1)) ready (by simp) (by simp) carries
  rwa [read] at run

theorem exec_unpin {tag : Byte} (ready : Ready s .rm) (carries : Carries s b tag.toNat) :
    exec (.unpin .rm [tag]) s = .next ((unpin b s).2.answering .rm 0x15 (unpin b s).1) :=
  request_tagged (g := unpin) (body := [tag]) ready (by simp) (by simp) carries

/-- The answer of PIN: CLAMPED above 1000. -/
theorem pinReply (position : Nat) :
    Reply.written (outOfRange 0 1000 (position : Int)) =
      { status := if 1000 < position then .clamped else .ok, body := [] } := by
  rw [outOfRange_natCast, Reply.written_decide]
  simp

theorem pinPosition (position : Nat) : saturate 0 1000 (position : Int) = min position 1000 := by
  rw [saturate_natCast (Nat.zero_le _)]; omega

theorem pin_enters (flows : (s.branch b).state = .flowing ∨ (s.branch b).state = .setback) :
    pin position b s = (Reply.written (outOfRange 0 1000 (position : Int)),
      enter b ((s.branch b).toPinned (saturate 0 1000 (position : Int))) s) := by
  unfold pin
  rcases flows with h | h <;> rw [h]

theorem pin_moves (pinned : (s.branch b).state = .pinned) :
    pin position b s = (Reply.written (outOfRange 0 1000 (position : Int)),
      s.setBranch b { s.branch b with
        pin := some (saturate 0 1000 (position : Int)), supply := saturate 0 1000 (position : Int) }) := by
  unfold pin
  rw [pinned]

theorem pin_wrongState (flows : (s.branch b).state ≠ .flowing) (setBack : (s.branch b).state ≠ .setback)
    (pinned : (s.branch b).state ≠ .pinned) : pin position b s = refuse .wrongState s := by
  unfold pin
  split <;> simp_all

end Pinning

/-- Settles O15: PIN by the state of the branch, UNPIN from PINNED alone. -/
theorem pinAndUnpinMoveTheBranch : Obligations.PinAndUnpinMoveTheBranch := by
  intro s b tag position ready carries fits
  rw [exec_pin ready carries fits, exec_unpin ready carries]
  refine ⟨fun flows => ?_, fun pinned => ?_, fun flows setBack pinned => ?_, fun x pinned held => ?_, fun other => ?_⟩
  · rw [pin_enters flows, pinReply, pinPosition]; rfl
  · rw [pin_moves pinned, pinReply, pinPosition]
  · rw [pin_wrongState flows setBack pinned]; rfl
  · rw [unpin, if_pos pinned, held, ← MapEntry.startTtl_eq]; rfl
  · rw [unpin, if_neg other]; rfl

/-! ### SET_DEMAND and SET_LIMITS (R51, R65, R66) -/

section Plan

variable {s : State} {b : BranchId}

theorem exec_setDemand {tag : Byte} {d : Nat} (ready : Ready s .rm) (carries : Carries s b tag.toNat) (fits : d < 65536) :
    exec (.setDemand .rm (tag :: byte2 d)) s = .next ((setDemand d b s).2.answering .rm 0x18 (setDemand d b s).1) := by
  have read : at2 (tag :: byte2 d) 1 = d := at2_byte2 fits
  have run : exec (.setDemand .rm (tag :: byte2 d)) s =
      .next ((setDemand (at2 (tag :: byte2 d) 1) b s).2.answering .rm 0x18 (setDemand (at2 (tag :: byte2 d) 1) b s).1) :=
    request_tagged (g := setDemand (at2 (tag :: byte2 d) 1)) ready (by simp) (by simp) carries
  rwa [read] at run

theorem exec_setLimits {tag weight : Byte} {f c : Nat} (ready : Ready s .rm) (carries : Carries s b tag.toNat)
    (floorFits : f < 65536) (capFits : c < 65536) :
    exec (.setLimits .rm (tag :: (byte2 f ++ byte2 c ++ [weight]))) s =
      .next ((setLimits f c weight.toNat b s).2.answering .rm 0x19 (setLimits f c weight.toNat b s).1) := by
  have floorRead : at2 (tag :: (byte2 f ++ byte2 c ++ [weight])) 1 = f := at2_byte2 floorFits
  have capRead : at2 (tag :: (byte2 f ++ byte2 c ++ [weight])) 3 = c := at2_byte2 capFits
  generalize shape : tag :: (byte2 f ++ byte2 c ++ [weight]) = body at floorRead capRead
  have run : exec (.setLimits .rm body) s =
      .next ((setLimits (at2 body 1) (at2 body 3) (at1 body 5) b s).2.answering .rm 0x19
        (setLimits (at2 body 1) (at2 body 3) (at1 body 5) b s).1) := by
    refine request_tagged (g := setLimits (at2 body 1) (at2 body 3) (at1 body 5)) ready ?_ (by simp) ?_
    · simp [← shape]
    · rw [← shape]; exact carries
  have weightRead : at1 body 5 = weight.toNat := by rw [← shape]; rfl
  rwa [floorRead, capRead, weightRead] at run

theorem takesNoPlan_iff (s : State) (b : BranchId) :
    takesNoPlan s b = true ↔ (s.branch b).state = .unmapped ∨ (s.branch b).state = .vacant := by
  simp [takesNoPlan]

theorem setDemand_written (d : Nat) (plan : ¬ takesNoPlan s b = true) :
    setDemand d b s = ({ status := if 2000 < d then .clamped else .ok, body := [] },
      demandRefresh b (s.setPendingPlan b { s.pendingPlan b with demand := min d 2000 })) := by
  have demand : saturate 0 2000 (d : Int) = min d 2000 := by
    rw [saturate_natCast (Nat.zero_le _)]; omega
  rw [setDemand, if_neg plan, demand, outOfRange_natCast, Reply.written_decide]
  simp

theorem setLimits_badValue (f c weight : Nat) (plan : ¬ takesNoPlan s b = true) (crossed : min c 2000 < min f 2000) :
    setLimits f c weight b s = refuse .badValue s := by
  rw [setLimits, if_neg plan, if_pos]
  rw [saturate_natCast (Nat.zero_le _), saturate_natCast (Nat.zero_le _)]
  omega

theorem setLimits_written (f c weight : Nat) (plan : ¬ takesNoPlan s b = true) (ordered : min f 2000 ≤ min c 2000) :
    setLimits f c weight b s =
      ({ status := if 2000 < f ∨ 2000 < c ∨ weight = 0 ∨ 15 < weight then .clamped else .ok, body := [] },
        s.setPendingPlan b
          { s.pendingPlan b with floor := min f 2000, cap := min c 2000, weight := max 1 (min weight 15) }) := by
  have limit (n : Nat) : saturate 0 2000 (n : Int) = min n 2000 := by
    rw [saturate_natCast (Nat.zero_le _)]; omega
  have weighed : saturate 1 15 (weight : Int) = max 1 (min weight 15) := by
    rw [saturate_natCast (by decide)]; omega
  rw [setLimits, if_neg plan, limit, limit, weighed, if_neg (by omega), outOfRange_natCast, outOfRange_natCast,
    outOfRange_natCast, ← Bool.decide_or, ← Bool.decide_or, Reply.written_decide]
  simp [or_assoc]

theorem demandRefresh_flowing (flows : (s.branch b).state = .flowing) :
    demandRefresh b s =
      if (s.entry b).ttlPolicy = .refresh then
        s.setBranch b { s.branch b with ttl := some (Timer.start (s.entry b).ttlTime) }
      else s := by
  unfold demandRefresh
  rw [flows]

theorem demandRefresh_setback (setBack : (s.branch b).state = .setback) :
    demandRefresh b s = enter b ((s.branch b).backToFlowing (s.entry b)) s := by
  unfold demandRefresh
  rw [setBack]

theorem demandRefresh_other (flows : (s.branch b).state ≠ .flowing) (setBack : (s.branch b).state ≠ .setback) :
    demandRefresh b s = s := by
  unfold demandRefresh
  split <;> simp_all

end Plan

/-- Settles O18: the refusal in UNMAPPED and VACANT, the plan entry written, and the TTL by state and policy. -/
theorem demandAndLimitsAreWritten : Obligations.DemandAndLimitsAreWritten := by
  intro s b tag weight d f c ready carries demandFits floorFits capFits st u limited answer
  have noPlan : takesNoPlan s b = true ↔ st = .unmapped ∨ st = .vacant := takesNoPlan_iff s b
  rw [exec_setDemand ready carries demandFits, exec_setLimits ready carries floorFits capFits]
  have written (plan : ¬ takesNoPlan s b = true) :
      (Host.Outcome.next ((setDemand d b s).2.answering .rm 0x18 (setDemand d b s).1) : Host.Outcome State Fault Refusal) =
        answer (demandRefresh b u) := by
    rw [setDemand_written d plan]
  refine ⟨fun rest => ?_, fun flows refresh => ?_, fun flows fixed => ?_, fun setBack => ?_, fun other => ?_,
    fun mapped held crossed => ?_, fun mapped held ordered => ?_⟩
  · rw [setDemand, if_pos (noPlan.mpr rest), setLimits, if_pos (noPlan.mpr rest)]
    exact ⟨rfl, rfl⟩
  · rw [written (by simp [noPlan, flows]), demandRefresh_flowing (s := u) flows]
    exact congrArg answer (if_pos refresh)
  · rw [written (by simp [noPlan, flows]), demandRefresh_flowing (s := u) flows]
    exact congrArg answer (if_neg fixed)
  · rw [written (by simp [noPlan, setBack]), demandRefresh_setback (s := u) setBack, Branch.backToFlowing, MapEntry.startTtl_eq]
    rfl
  · have plan : ¬ takesNoPlan s b = true := by
      rw [noPlan]; rintro (h | h) <;> simp [h] at other
    have flows : st ≠ .flowing := by rintro h; simp [h] at other
    have setBack : st ≠ .setback := by rintro h; simp [h] at other
    rw [written plan, demandRefresh_other (s := u) flows setBack]
  · rw [setLimits_badValue f c weight.toNat (by tauto) crossed]
    rfl
  · rw [setLimits_written f c weight.toNat (by tauto) ordered]

end Sys2Proof.Machine

/-! ## Timers and cycles: the lifecycle's timers, the freeze, and the Cycle Timer -/

namespace Sys2Proof.Machine

open Sys2Proof

/-! ### Events that wait for a moment -/

section Due

variable {s : State} {after : Nat} {due : State → Bool} {f : State → State}

theorem event_due (runs : s.running = true) (reached : due (s.elapse after) = true) :
    event after (fun t => if due t then f t else t) s = .next (f (s.elapse after)) := by
  rw [event_taken runs, if_pos reached]

theorem event_notDue (runs : s.running = true) (early : due (s.elapse after) = false) :
    event after (fun t => if due t then f t else t) s = .next (s.elapse after) := by
  rw [event_taken runs, early]
  rfl

end Due

theorem isOver_iff (t : Option Timer) : isOver t = true ↔ ∃ r, t = some r ∧ r.steps = 0 := by
  cases t <;> simp [isOver]

theorem timerDue_iff (s : State) (b : BranchId) (st : BranchState) :
    timerDue s b st = true ↔ (s.branch b).state = st ∧ ∃ r, (s.branch b).timer = some r ∧ r.steps = 0 := by
  simp [timerDue, isOver_iff]

theorem ttlDue_iff (s : State) (b : BranchId) :
    ttlDue s b = true ↔
      ((s.branch b).state = .flowing ∧ s.mode ≠ .hold) ∧ ∃ r, (s.branch b).ttl = some r ∧ r.steps = 0 := by
  simp [ttlDue, isOver_iff]

/-! ### The lifecycle's timers (R45, R46, R52) -/

theorem exec_primeWindowExpiry (after : Nat) (b : BranchId) (s : State) :
    exec (.primeWindowExpiry after b) s = event after (fun t => if timerDue t b .priming then primeWindowEnds b t else t) s :=
  rfl

theorem exec_backoffExpiry (after : Nat) (b : BranchId) (s : State) :
    exec (.backoffExpiry after b) s =
      event after (fun t => if timerDue t b .backoff then enterPriming b ((t.branch b).attempts + 1) t else t) s := rfl

theorem exec_ttlExpiry (after : Nat) (b : BranchId) (s : State) :
    exec (.ttlExpiry after b) s = event after (fun t => if ttlDue t b then enter b (t.branch b).toSetback t else t) s := rfl

theorem primeWindowEnds_below {s : State} {b : BranchId} (below : (s.branch b).attempts < s.params.retryLimit) :
    primeWindowEnds b s =
      enter b ((s.branch b).atRest .backoff (s.branch b).attempts
        (some (Timer.start (backoffSteps (s.branch b).attempts)))) s :=
  if_pos below

theorem primeWindowEnds_exhausted {s : State} {b : BranchId} (reached : s.params.retryLimit ≤ (s.branch b).attempts) :
    primeWindowEnds b s =
      report .primeExhausted (.branch b) (some (s.branch b).attempts)
        (enter b ((s.branch b).atRest .noflow (s.branch b).attempts none) s) :=
  if_neg (Nat.not_lt.mpr reached)

/-- Settles O16: each of the three timers at its end, by `timerDue_iff` and `ttlDue_iff`. -/
theorem lifecycleTimersRunOut : Obligations.LifecycleTimersRunOut := by
  intro s after b runs u x ended
  refine ⟨fun primes over' below => ?_, fun primes over' reached => ?_, fun backs over' => ?_, fun flows over' moving => ?_⟩
  · rw [← s.elapse_params after] at below
    rw [exec_primeWindowExpiry, event_due runs ((timerDue_iff _ _ _).mpr ⟨primes, over'⟩), primeWindowEnds_below below]
    rfl
  · rw [← s.elapse_params after] at reached
    rw [exec_primeWindowExpiry, event_due runs ((timerDue_iff _ _ _).mpr ⟨primes, over'⟩), primeWindowEnds_exhausted reached]
    rfl
  · rw [exec_backoffExpiry, event_due runs ((timerDue_iff _ _ _).mpr ⟨backs, over'⟩), enterPriming, s.elapse_params,
      s.elapse_entry]
    rfl
  · rw [exec_ttlExpiry, event_due runs ((ttlDue_iff _ _).mpr ⟨⟨flows, by rwa [s.elapse_mode]⟩, over'⟩)]
    rfl

/-! ### The freeze (R69 to R71) -/

section Freezing

variable {s : State} {h k : Holder} {age : Timer}

theorem freezePlan_free (free : s.freeze = none) :
    freezePlan h s = (Reply.plain .ok, { s with freeze := some { holder := h, age := Timer.start 0 } }) := by
  unfold freezePlan
  rw [free]

theorem freezePlan_own (own : s.freeze = some { holder := h, age := age }) :
    freezePlan h s = (Reply.plain .ok, { s with freeze := some { holder := h, age := Timer.start 0 } }) := by
  simp [freezePlan, own]

theorem freezePlan_other (held : s.freeze = some { holder := k, age := age }) (other : k ≠ h) :
    freezePlan h s = refuse .heldByOther s := by
  simp [freezePlan, held, other]

theorem thawPlan_free (free : s.freeze = none) : thawPlan h s = (Reply.plain .ok, s) := by
  simp [thawPlan, free]

theorem thawPlan_own (own : s.freeze = some { holder := h, age := age }) :
    thawPlan h s = (Reply.plain .ok, { s with freeze := none }) := by
  simp [thawPlan, own]

theorem thawPlan_other (held : s.freeze = some { holder := k, age := age }) (other : k ≠ h) :
    thawPlan h s = refuse .heldByOther s := by
  simp [thawPlan, held, other]

/-- A holder's own port holds the freeze as that holder. -/
theorem exec_freeze_of_holder (ready : Ready s h.port) :
    exec (.freeze h.port []) s = .next ((freezePlan h s).2.answering h.port 0x1A (freezePlan h s).1) := by
  cases h <;> exact request_handled ready (by simp) (by simp [Holder.port])

theorem exec_thaw_of_holder (ready : Ready s h.port) :
    exec (.thaw h.port []) s = .next ((thawPlan h s).2.answering h.port 0x1B (thawPlan h s).1) := by
  cases h <;> exact request_handled ready (by simp) (by simp [Holder.port])

theorem freezeEnds_reached (held : s.freeze = some { holder := h, age := age }) (reached : s.params.freezeLimit ≤ age.steps) :
    freezeEnds s = notify h.port .freezeExpired { s with freeze := none } := by
  simp [freezeEnds, held, reached]

theorem freezeEnds_early (held : s.freeze = some { holder := h, age := age }) (early : age.steps < s.params.freezeLimit) :
    freezeEnds s = s := by
  simp [freezeEnds, held, early]

theorem freezeEnds_free (free : s.freeze = none) : freezeEnds s = s := by
  simp [freezeEnds, free]

end Freezing

theorem exec_freezeExpiry {s : State} (after : Nat) (runs : s.running = true) :
    exec (.freezeExpiry after) s = .next (freezeEnds (s.elapse after)) := event_taken runs

/-- Settles O19: FREEZE and THAW by the holder, and the expiry by the age. -/
theorem theFreezeIsHeldByOnePort : Obligations.TheFreezeIsHeldByOnePort := by
  refine ⟨fun s p h ready own => ?_, fun s after runs => ?_⟩
  · subst own
    simp only [exec_freeze_of_holder ready, exec_thaw_of_holder ready]
    refine ⟨fun free => ?_, fun age own => ?_, fun k age held other => ⟨?_, ?_⟩, fun free => ?_, fun age own => ?_⟩
    · rw [freezePlan_free free]; rfl
    · rw [freezePlan_own own]; rfl
    · rw [freezePlan_other held other]; rfl
    · rw [thawPlan_other held other]; rfl
    · rw [thawPlan_free free]; rfl
    · rw [thawPlan_own own]; rfl
  · simp only [exec_freezeExpiry after runs]
    refine ⟨fun h age held reached => ?_, fun h age held early => ?_, fun free => ?_⟩
    · rw [freezeEnds_reached held (by rwa [s.elapse_params])]
    · rw [freezeEnds_early held (by rwa [s.elapse_params])]
    · rw [freezeEnds_free free]

/-! ### The starts of cycles (R74, R75, R77) -/

theorem exec_freeCycleStart (after : Nat) (s : State) :
    exec (.freeCycleStart after) s = event after (fun t => if freeCycleDue t then startCycle t else t) s := rfl

theorem exec_lockedCycleStart (after : Nat) (s : State) :
    exec (.lockedCycleStart after) s = event after (fun t => if lockedCycleDue t then startFurther t else t) s := rfl

theorem freeCycleDue_elapse (s : State) (after : Nat) :
    freeCycleDue (s.elapse after) =
      decide (s.timer.timing = .free ∧ s.timer.lastStart.getD s.timer.origin + s.params.cyclePeriod ≤ s.clock + after) := by
  simp [freeCycleDue, CycleTimer.base]

theorem lockedCycleDue_head {s : State} {t : Nat} {rest : List Nat} (locked : s.timer.timing = .locked)
    (schedule : s.timer.further = t :: rest) : lockedCycleDue s = decide (t ≤ s.clock) := by
  simp [lockedCycleDue, locked, schedule]

theorem lockedCycleDue_empty {s : State} (schedule : s.timer.further = []) : lockedCycleDue s = false := by
  simp [lockedCycleDue, schedule]

theorem lockedCycleDue_free {s : State} (free : s.timer.timing = .free) : lockedCycleDue s = false := by
  simp [lockedCycleDue, free]

theorem startFurther_eq (s : State) :
    startFurther s = allotmentCycle
      { s with timer := { s.timer with further := s.timer.further.tail, lastStart := some s.clock } } := rfl

/-- Settles O20: due or not, in each timing. -/
theorem cyclesStartWhenTheyAreDue : Obligations.CyclesStartWhenTheyAreDue := by
  intro s after runs u moment
  rw [exec_freeCycleStart, exec_lockedCycleStart]
  have head {t : Nat} {rest : List Nat} (locked : s.timer.timing = .locked) (schedule : s.timer.further = t :: rest) :
      lockedCycleDue u = decide (t ≤ s.clock + after) := by
    rw [lockedCycleDue_head (t := t) (rest := rest) (by rwa [s.elapse_timer]) (by rwa [s.elapse_timer]), s.elapse_clock]
  refine ⟨fun free due => ?_, fun early => ?_, fun locked => ?_, fun t rest locked schedule due => ?_,
    fun t rest locked schedule early => ?_, fun empty => ?_, fun free => ?_⟩
  · rw [event_due runs (by rw [freeCycleDue_elapse]; simpa using ⟨free, due⟩), startCycle, s.elapse_timer, s.elapse_clock]
  · exact event_notDue runs (by
      rw [freeCycleDue_elapse, decide_eq_false_iff_not]
      exact fun h => Nat.not_le.mpr early h.2)
  · exact event_notDue runs (by rw [freeCycleDue_elapse, locked]; simp)
  · rw [event_due runs (by rw [head locked schedule]; simpa using due), startFurther_eq, s.elapse_timer,
      s.elapse_clock, schedule, List.tail_cons]
  · exact event_notDue runs (by rw [head locked schedule]; simpa using early)
  · exact event_notDue runs (lockedCycleDue_empty (by rwa [s.elapse_timer]))
  · exact event_notDue runs (lockedCycleDue_free (by rwa [s.elapse_timer]))

/-! ### Marks (R76 to R78) -/

theorem exec_mark (after : Nat) (input : Feed) (s : State) :
    exec (.mark after input) s = event after (fun t => if watches t input then takeMark t else t) s := rfl

theorem exec_lossDeadline (after : Nat) (s : State) :
    exec (.lossDeadline after) s = event after (fun t => if deadlineDue t then loseLock t.timer.reference t else t) s := rfl

/-- R76: the interval of a valid mark. -/
theorem validInterval_some {s : State} {i : Nat} :
    validInterval s = some i ↔ markInterval s = some i ∧ 100 * s.params.markMultiplier ≤ i ∧ i ≤ 10000 := by
  unfold validInterval
  cases markInterval s with
  | none => simp
  | some j =>
    dsimp only
    by_cases valid : 100 * s.params.markMultiplier ≤ j ∧ j ≤ 10000
    · rw [if_pos valid]
      exact ⟨fun h => Option.some.inj h ▸ ⟨rfl, valid⟩, fun h => h.1⟩
    · rw [if_neg valid]
      exact ⟨fun h => (nomatch h), fun h => absurd (Option.some.inj h.1 ▸ h.2) valid⟩

theorem validInterval_none {s : State} :
    validInterval s = none ↔ ∀ i, ¬ (markInterval s = some i ∧ 100 * s.params.markMultiplier ≤ i ∧ i ≤ 10000) := by
  simp only [← validInterval_some, Option.eq_none_iff_forall_ne_some, ne_eq]

theorem lockedMark_eq (i : Nat) (s : State) :
    lockedMark i s = allotmentCycle { s with timer := { s.timer with
      timing := .locked, lockIn := 0, reference := some s.clock, interval := some i, deadline := some (s.clock + 2 * i),
      further := (List.range' 1 (s.params.markMultiplier - 1)).map fun j => s.clock + j * i / s.params.markMultiplier,
      lastStart := some s.clock } } := rfl

section Marks

variable {s : State} {i : Nat}

theorem takeMark_locks (free : s.timer.timing = .free) (valid : validInterval s = some i) (second : s.timer.lockIn = 1) :
    takeMark s = lockedMark i s := by
  simp [takeMark, free, valid, second]

theorem takeMark_counts (free : s.timer.timing = .free) (valid : validInterval s = some i) (first : s.timer.lockIn = 0) :
    takeMark s = { s with timer := { s.timer with lockIn := 1, reference := some s.clock } } := by
  simp [takeMark, free, valid, first]

theorem takeMark_freeInvalid (free : s.timer.timing = .free) (invalid : validInterval s = none) :
    takeMark s = { s with timer := { s.timer with lockIn := 0, reference := some s.clock } } := by
  simp [takeMark, free, invalid]

theorem takeMark_keeps (locked : s.timer.timing = .locked) (valid : validInterval s = some i) :
    takeMark s = lockedMark i s := by
  simp [takeMark, locked, valid]

theorem takeMark_loses (locked : s.timer.timing = .locked) (invalid : validInterval s = none) :
    takeMark s = loseLock (some s.clock) s := by
  simp [takeMark, locked, invalid]

end Marks

/-- Settles O21: a mark by the timing and its interval, on the watched input; the loss deadline. -/
theorem marksLockTheCycleTimer : Obligations.MarksLockTheCycleTimer := by
  intro s after input runs u now m valid lockedBy lost
  have timer : u.timer = s.timer := s.elapse_timer after
  have clock : u.clock = now := s.elapse_clock after
  have params : u.params = s.params := s.elapse_params after
  have interval : markInterval u = s.timer.reference.map fun r => (now - r) / 10 * 10 := by
    rw [markInterval, timer, clock]
  have validU {i : Nat} (h : valid i) : validInterval u = some i := by
    rw [validInterval_some, interval, params]; exact h
  have invalidU (h : ∀ i, ¬ valid i) : validInterval u = none := by
    rw [validInterval_none, interval, params]; exact h
  have locks (i : Nat) : lockedMark i u = lockedBy i := by
    rw [lockedMark_eq]
    dsimp only [lockedBy]
    rw [timer, clock, params]
  have loses (r : Option Nat) : loseLock r u = lost r := by
    rw [loseLock, timer]; rfl
  refine ⟨fun lockedMode watched => ?_, fun unwatched => ?_, fun d locked deadline reached => ?_⟩
  · have watches : watches u input = true := by
      rw [Machine.watches, params, s.elapse_activeFeed]; simpa using ⟨lockedMode, watched⟩
    rw [exec_mark, event_due runs watches]
    refine ⟨fun free i ok second => ?_, fun free i ok first => ?_, fun free bad => ?_, fun locked i ok => ?_,
      fun locked bad => ?_⟩
    · rw [takeMark_locks (by rwa [timer]) (validU ok) (by rwa [timer]), locks]
    · rw [takeMark_counts (by rwa [timer]) (validU ok) (by rwa [timer]), timer, clock]
    · rw [takeMark_freeInvalid (by rwa [timer]) (invalidU bad), timer, clock]
    · rw [takeMark_keeps (by rwa [timer]) (validU ok), locks]
    · rw [takeMark_loses (by rwa [timer]) (invalidU bad), clock, loses]
  · rw [exec_mark]
    refine event_notDue runs ?_
    rw [watches, s.elapse_params, s.elapse_activeFeed, decide_eq_false_iff_not]
    rintro ⟨lockedMode, watched⟩
    obtain free | other := unwatched
    · rw [lockedMode] at free; cases free
    · exact other watched
  · have due : deadlineDue u = true := by
      simp [deadlineDue, timer, locked, deadline, clock, reached]
    rw [exec_lossDeadline, event_due runs due, loses, timer]

end Sys2Proof.Machine

/-! ## The leases: grants, withdrawals, marks, the handover test, and the budget in force -/

namespace Sys2Proof.Machine

open Sys2Proof

/-! ### GRANT_BUDGET and WITHDRAW_BUDGET (R106 to R108, R113) -/

/-- A four-byte field reads back what was written to it (R183). -/
theorem at4_byte4 {n : Nat} (fits : n < 4294967296) : at4 (byte4 n) 0 = n := by
  have b0 : at1 (byte4 n) 0 = n / 16777216 % 256 := BitVec.toNat_ofNat _ _
  have b1 : at1 (byte4 n) 1 = n / 65536 % 256 := BitVec.toNat_ofNat _ _
  have b2 : at1 (byte4 n) 2 = n / 256 % 256 := BitVec.toNat_ofNat _ _
  have b3 : at1 (byte4 n) 3 = n % 256 := BitVec.toNat_ofNat _ _
  simp only [at4, at2, b0, b1, b2, b3]
  omega

theorem Feed.port_leaseFeed (f : Feed) : Port.leaseFeed f.port = f := by cases f <;> rfl

theorem Feed.port_controller (f : Feed) : f.port ∈ [Port.ua, .ub] := by cases f <;> simp [Feed.port]

theorem exec_grantBudget (p : Port) (body : List Byte) (s : State) :
    exec (.grantBudget p body) s = request p 0x20 [6, 14] [.ua, .ub] body (grantBudget (Port.leaseFeed p) body) s := rfl

theorem exec_withdrawBudget (p : Port) (body : List Byte) (s : State) :
    exec (.withdrawBudget p body) s = request p 0x21 [0] [.ua, .ub] body (withdrawBudget (Port.leaseFeed p)) s := rfl

theorem durationSteps_eq (ms : Nat) : durationSteps ms = max 30000 (min ms 86400000) / 100 := by
  rw [durationSteps, saturate_natCast (by decide), Nat.min_comm]

theorem outOfRange_duration (ms : Nat) : outOfRange 30000 86400000 (ms : Int) = decide (ms < 30000 ∨ 86400000 < ms) :=
  outOfRange_natCast _ _ _

theorem grantMarks_ordered_given {d m1 m2 : Nat} (inOrder : 0 < m1 / 100 ∧ m1 / 100 < m2 / 100 ∧ m2 / 100 < d) :
    grantMarks d (some (m1, m2)) = ((m1 / 100, m2 / 100), false) := if_pos inOrder

theorem grantMarks_replaced {d m1 m2 : Nat} (crossed : ¬ (0 < m1 / 100 ∧ m1 / 100 < m2 / 100 ∧ m2 / 100 < d)) :
    grantMarks d (some (m1, m2)) = ((d / 2, d * 7 / 8), true) := if_neg crossed

/-- A grant's answer and lease by the budget, the duration and the marks in its body. -/
theorem exec_grantBudget_read {s : State} {f : Feed} {body : List Byte} {budget ms : Nat} {given : Option (Nat × Nat)}
    (ready : Ready s f.port) (length : body.length ∈ [6, 14]) (budgetRead : at2 body 0 = budget) (msRead : at4 body 2 = ms)
    (marksRead : givenMarks body = given) :
    exec (.grantBudget f.port body) s =
      .next ((s.setLease f (some (grantedLease budget ms given))).answering f.port 0x20
        (Reply.written (grantClamped ms given))) := by
  rw [exec_grantBudget, request_handled ready length (Feed.port_controller f), Feed.port_leaseFeed f, grantBudget, budgetRead, msRead,
    marksRead]

theorem withdrawBudget_counted {s : State} {f : Feed} {l : Lease} (present : s.lease f = some l) (counts : l.phase ≠ .lapsed)
    (active : s.activeFeed = f) : withdrawBudget f s = (Reply.plain .ok, notifyAll .budgetLapsed (s.setLease f none)) := by
  simp [withdrawBudget, present, Lease.counts, counts, active]

theorem withdrawBudget_silent {s : State} {f : Feed}
    (silent : (∃ l, s.lease f = some l ∧ l.phase = .lapsed) ∨ s.lease f = none ∨ s.activeFeed ≠ f) :
    withdrawBudget f s = (Reply.plain .ok, s.setLease f none) := by
  obtain ⟨l, present, lapsed⟩ | absent | standby := silent
  · simp [withdrawBudget, present, Lease.counts, lapsed]
  · simp [withdrawBudget, absent]
  · simp [withdrawBudget, standby]

theorem exec_withdrawBudget_feed {s : State} {f : Feed} (ready : Ready s f.port) :
    exec (.withdrawBudget f.port []) s =
      .next ((withdrawBudget f s).2.answering f.port 0x21 (withdrawBudget f s).1) := by
  rw [exec_withdrawBudget, request_handled ready (by simp) (Feed.port_controller f), Feed.port_leaseFeed f]

/-- Settles O26: the two forms of a grant's body, with marks in order and not, and the withdrawal by what it ends. -/
theorem budgetsAreGrantedAndWithdrawn : Obligations.BudgetsAreGrantedAndWithdrawn := by
  refine ⟨fun s f budget ms m1 m2 ready budgetFits msFits m1Fits m2Fits => ?_, fun s f ready => ?_⟩
  · intro d saturated inOrder bound granted
    have length : d = durationSteps ms := (durationSteps_eq ms).symm
    have short := exec_grantBudget_read (body := byte2 budget ++ byte4 ms) (given := none) ready
      (by simp [byte4]) (at2_byte2 budgetFits) (at4_byte4 msFits) rfl
    have long := exec_grantBudget_read (body := byte2 budget ++ byte4 ms ++ byte4 m1 ++ byte4 m2) (given := some (m1, m2))
      ready (by simp [byte4]) (at2_byte2 budgetFits) (at4_byte4 msFits)
      (congrArg some (Prod.ext (at4_byte4 m1Fits) (at4_byte4 m2Fits)))
    refine ⟨?_, fun ordered => ?_, fun crossed => ?_⟩
    · rw [short]
      simp only [grantedLease, grantClamped, grantMarks, ← length, outOfRange_duration, Bool.or_false]
      rfl
    · rw [long]
      simp only [grantedLease, grantClamped, ← length, outOfRange_duration, grantMarks_ordered_given ordered, Bool.or_false]
      rfl
    · rw [long]
      simp only [grantedLease, grantClamped, ← length, grantMarks_replaced crossed, Bool.or_true]
      rfl
  · rw [exec_withdrawBudget_feed ready]
    refine ⟨?_, fun silent => ?_⟩
    · rintro ⟨l, present, counts⟩ active
      rw [withdrawBudget_counted present counts active]; rfl
    · rw [withdrawBudget_silent silent]; rfl

/-! ### The budget in force (R114) -/

theorem Lease.counts_iff (l : Lease) : l.counts = true ↔ l.phase = .bound ∨ l.phase = .renewDue ∨ l.phase = .expiring := by
  cases phase : l.phase <;> simp [Lease.counts, phase]

theorem budgetInForce_setLease_other (s : State) (x : Option Lease) :
    budgetInForce (s.setLease s.activeFeed.other x) = budgetInForce s := by
  have lease : (s.setLease s.activeFeed.other x).lease s.activeFeed = s.lease s.activeFeed := by
    rw [State.setLease_lease, if_neg (Feed.ne_other _)]
  unfold budgetInForce
  rw [show (s.setLease s.activeFeed.other x).activeFeed = s.activeFeed from rfl, lease]

/-- Settles O29: an active lease counts unless it has lapsed. -/
theorem theActiveLeaseIsInForce : Obligations.TheActiveLeaseIsInForce := by
  refine fun s budget => ⟨?_, budgetInForce_setLease_other s⟩
  unfold budgetInForce
  cases s.lease s.activeFeed with
  | none => simp
  | some l =>
    dsimp only
    rw [Option.ite_none_right_eq_some, l.counts_iff]
    simp

/-! ### The handover test (R111) -/

section Handover

variable {s : State} {f : Feed}

theorem handoverTest_notActive (h : ¬ s.activeFeed = f) : handoverTest f s = .notActive := if_pos h

theorem handoverTest_disabled (active : s.activeFeed = f) (h : ¬ s.params.autoHandover = true) :
    handoverTest f s = .disabled := by
  simp [handoverTest, active, h]

theorem handoverTest_locked (active : s.activeFeed = f) (enabled : s.params.autoHandover = true) (h : ¬ s.feedLock = false) :
    handoverTest f s = .locked := by
  simp [handoverTest, active, enabled, h]

theorem handoverTest_switchInFlight (active : s.activeFeed = f) (enabled : s.params.autoHandover = true)
    (unlocked : s.feedLock = false) (h : ¬ s.switch = none) : handoverTest f s = .switchInFlight := by
  have flying : s.switch.isSome = true := Option.isSome_iff_ne_none.mpr h
  simp [handoverTest, active, enabled, unlocked, flying]

theorem handoverTest_mode (active : s.activeFeed = f) (enabled : s.params.autoHandover = true) (unlocked : s.feedLock = false)
    (still : s.switch = none) (h : ¬ s.mode ≠ .safe) : handoverTest f s = .mode := by
  simp [handoverTest, active, enabled, unlocked, still, not_not.mp h]

theorem handoverTest_standbyFailed (active : s.activeFeed = f) (enabled : s.params.autoHandover = true)
    (unlocked : s.feedLock = false) (still : s.switch = none) (safe : s.mode ≠ .safe)
    (h : ¬ (s.feed f.other).failed = false) : handoverTest f s = .standbyFailed := by
  simp [handoverTest, active, enabled, unlocked, still, safe, h]

theorem standbyFresh_iff :
    standbyFresh s f = true ↔ ∃ l, s.lease f = some l ∧ (l.phase = .bound ∨ l.phase = .renewDue) := by
  unfold standbyFresh
  cases s.lease f <;> simp

theorem handoverTest_fresh (active : s.activeFeed = f) (enabled : s.params.autoHandover = true)
    (unlocked : s.feedLock = false) (still : s.switch = none) (safe : s.mode ≠ .safe)
    (clear : (s.feed f.other).failed = false) :
    handoverTest f s = if standbyFresh s f.other = true then .started else .standbyLease := by
  cases fresh : standbyFresh s f.other <;> simp [handoverTest, active, enabled, unlocked, still, safe, clear, fresh]

theorem makeHandoverTest_failed {r : HandoverResult} (tested : handoverTest f s = r) (failed : r ≠ .started) :
    makeHandoverTest f s = { s with handover := some { feed := f, uptime := s.uptime, result := r } } := by
  rw [makeHandoverTest, tested, if_neg failed]

theorem makeHandoverTest_started (tested : handoverTest f s = .started) :
    makeHandoverTest f s = beginSwitch f.other .handover
      { s with handover := some { feed := f, uptime := s.uptime, result := .started } } := by
  rw [makeHandoverTest, tested, if_pos rfl]

end Handover

/-- Settles O28: the seven conditions in the order of R111's table, and the switch begun where all hold. -/
theorem theHandoverTestFailsOnTheFirst : Obligations.TheHandoverTestFailsOnTheFirst := by
  intro s f fresh conditions recorded
  refine ⟨fun n h holds fails => ?_, fun holds => ?_⟩
  · match n, h with
    | 0, _ => exact makeHandoverTest_failed (handoverTest_notActive fails) nofun
    | 1, _ => exact makeHandoverTest_failed (handoverTest_disabled (holds 0 (by decide)) fails) nofun
    | 2, _ =>
      exact makeHandoverTest_failed (handoverTest_locked (holds 0 (by decide)) (holds 1 (by decide)) fails) nofun
    | 3, _ =>
      exact makeHandoverTest_failed
        (handoverTest_switchInFlight (holds 0 (by decide)) (holds 1 (by decide)) (holds 2 (by decide)) fails) nofun
    | 4, _ =>
      exact makeHandoverTest_failed
        (handoverTest_mode (holds 0 (by decide)) (holds 1 (by decide)) (holds 2 (by decide)) (holds 3 (by decide)) fails)
        nofun
    | 5, _ =>
      exact makeHandoverTest_failed
        (handoverTest_standbyFailed (holds 0 (by decide)) (holds 1 (by decide)) (holds 2 (by decide)) (holds 3 (by decide))
          (holds 4 (by decide)) fails) nofun
    | 6, _ =>
      have stale : ¬ standbyFresh s f.other = true := fun h => fails (standbyFresh_iff.mp h)
      refine makeHandoverTest_failed ?_ nofun
      rw [handoverTest_fresh (holds 0 (by decide)) (holds 1 (by decide)) (holds 2 (by decide)) (holds 3 (by decide))
        (holds 4 (by decide)) (holds 5 (by decide)), if_neg stale]
      rfl
  · simp only [conditions, List.forall_mem_cons, List.not_mem_nil, false_implies, implies_true, and_true] at holds
    obtain ⟨active, enabled, unlocked, still, safe, clear, lease⟩ := holds
    have started : handoverTest f s = .started := by
      rw [handoverTest_fresh active enabled unlocked still safe clear, if_pos (standbyFresh_iff.mpr lease)]
    have begun := makeHandoverTest_started started
    subst active
    exact begun

/-! ### The marks of a lease (R109, R110, R112) -/

section LeaseMarks

variable {s u : State} {f : Feed} {l : Lease} {phase : LeasePhase}

theorem leaseMarkDue_of_lease (present : s.lease f = some l) : leaseMarkDue s f = l.markReached := by
  simp [leaseMarkDue, present]

theorem takeLeaseMark_notDue (waits : leaseMarkDue s f = false) : takeLeaseMark f s = s := by
  unfold takeLeaseMark
  cases present : s.lease f with
  | none => rfl
  | some l => simp [← leaseMarkDue_of_lease present, waits]

/-- The mark of one lease leaves the other's to come. -/
theorem leaseMarkDue_takeLeaseMark_other {g : Feed} (other : g ≠ f) :
    leaseMarkDue (takeLeaseMark f s) g = leaseMarkDue s g := by
  simp [leaseMarkDue, takeLeaseMark_lease, other]

/-- Where the other lease has no mark to take, the marks of a moment are the one lease's. -/
theorem takeLeaseMarks_one (f : Feed) (other : leaseMarkDue s f.other = false) : takeLeaseMarks s = takeLeaseMark f s := by
  have together : ¬ (leaseMarkDue s .a && leaseMarkDue s .b) = true := by
    cases f <;> simp_all [Feed.other]
  rw [takeLeaseMarks, if_neg together]
  cases f with
  | a =>
    refine takeLeaseMark_notDue ?_
    rw [leaseMarkDue_takeLeaseMark_other (by decide)]
    exact other
  | b => rw [takeLeaseMark_notDue (f := .a) other]

theorem State.elapse_running_eq (runs : s.running = true) (after : Nat) :
    s.elapse after = takeLeaseMarks (s.elapseBefore after) := if_pos runs

theorem leaseEvent_taken {after : Nat} {g : State → State} (runs : s.running = true) :
    leaseEvent after g s = .next (takeLeaseMarks (g (s.elapseBefore after))) := by
  simp [leaseEvent, runs]

theorem leaseDue_of_lease (present : s.lease f = some l) : leaseDue s f phase = (decide (l.phase = phase) && l.markReached) := by
  simp [leaseDue, present]

/-- A mark that falls at the end of the time that passes is taken once, by its command or as time passes. -/
theorem leaseMark_falls {after : Nat} (runs : s.running = true) (present : (s.elapseBefore after).lease f = some l)
    (other : leaseMarkDue (s.elapseBefore after) f.other = false) (inPhase : l.phase = phase) (reached : l.markReached = true)
    (next : l.afterMark.markReached = false) :
    leaseEvent after (fun t => if leaseDue t f phase then reachMark f phase t else t) s =
        .next (reachMark f phase (s.elapseBefore after)) ∧
      s.elapse after = reachMark f phase (s.elapseBefore after) := by
  have due : leaseDue (s.elapseBefore after) f phase = true := by
    simp [leaseDue_of_lease present, inPhase, reached]
  have taken := reachMark_due due
  rw [leaseEvent_taken runs, if_pos due, State.elapse_running_eq runs, takeLeaseMarks_one f other, ← taken]
  refine ⟨?_, rfl⟩
  rw [taken, takeLeaseMarks_one f, takeLeaseMark_notDue]
  · simp [leaseMarkDue, takeLeaseMark_lease, present, next]
  · rw [leaseMarkDue_takeLeaseMark_other (Feed.ne_other f).symm, other]

/-- A command whose mark has not come leaves the moment to the passing of time. -/
theorem leaseMark_waits {after : Nat} (runs : s.running = true) (present : (s.elapseBefore after).lease f = some l)
    (waits : l.phase ≠ phase ∨ l.markReached = false) :
    leaseEvent after (fun t => if leaseDue t f phase then reachMark f phase t else t) s = .next (s.elapse after) := by
  have early : ¬ leaseDue (s.elapseBefore after) f phase = true := by
    rw [leaseDue_of_lease present]
    obtain other | early := waits
    · simp [other]
    · simp [early]
  rw [leaseEvent_taken runs, if_neg early, State.elapse_running_eq runs]

theorem leasePhase_of_lease (present : s.lease f = some l) (phase : LeasePhase) :
    leasePhase f phase s = s.setLease f (some { l with phase := phase }) := by
  rw [leasePhase, present]
  rfl

theorem lapse_active (present : s.lease f = some l) (active : s.activeFeed = f) :
    lapse f s = notifyAll .budgetLapsed (report .leaseLapsed (.feed f) (some (min l.budget 32767))
      (s.setLease f (some { l with phase := .lapsed }))) := by
  have budget : leaseBudget s f = l.budget := by simp [leaseBudget, present]
  rw [lapse, if_pos active, leasePhase_of_lease present, budget]

theorem lapse_standby (present : s.lease f = some l) (standby : s.activeFeed ≠ f) :
    lapse f s = s.setLease f (some { l with phase := .lapsed }) := by
  rw [lapse, if_neg standby, leasePhase_of_lease present]

end LeaseMarks

theorem exec_leaseT1Reached (after : Nat) (f : Feed) (s : State) :
    exec (.leaseT1Reached after f) s =
      leaseEvent after (fun t => if leaseDue t f .bound then reachMark f .bound t else t) s := rfl

theorem exec_leaseT2Reached (after : Nat) (f : Feed) (s : State) :
    exec (.leaseT2Reached after f) s =
      leaseEvent after (fun t => if leaseDue t f .renewDue then reachMark f .renewDue t else t) s := rfl

theorem exec_leaseLapse (after : Nat) (f : Feed) (s : State) :
    exec (.leaseLapse after f) s =
      leaseEvent after (fun t => if leaseDue t f .expiring then reachMark f .expiring t else t) s := rfl

/-! A lease's mark by its phase (R105). -/

section Phases

variable {l : Lease}

theorem Lease.markReached_bound (h : l.phase = .bound) : l.markReached = decide (l.t1 ≤ l.age.steps) := by
  simp [Lease.markReached, Lease.mark, h]

theorem Lease.markReached_renewDue (h : l.phase = .renewDue) : l.markReached = decide (l.t2 ≤ l.age.steps) := by
  simp [Lease.markReached, Lease.mark, h]

theorem Lease.markReached_expiring (h : l.phase = .expiring) : l.markReached = decide (l.duration ≤ l.age.steps) := by
  simp [Lease.markReached, Lease.mark, h]

theorem Lease.afterMark_bound (h : l.phase = .bound) (reached : l.markReached = true) :
    l.afterMark = { l with phase := .renewDue } := by
  simp [Lease.afterMark, reached, h]

theorem Lease.afterMark_renewDue (h : l.phase = .renewDue) (reached : l.markReached = true) :
    l.afterMark = { l with phase := .expiring } := by
  simp [Lease.afterMark, reached, h]

theorem Lease.afterMark_expiring (h : l.phase = .expiring) (reached : l.markReached = true) :
    l.afterMark = { l with phase := .lapsed } := by
  simp [Lease.afterMark, reached, h]

end Phases

/-- Settles O27: `leaseMark_falls` and `leaseMark_waits` at each of the three marks. -/
theorem leaseMarksAreReached : Obligations.LeaseMarksAreReached := by
  intro s after f l runs u present other falls
  have lapses (phase : l.phase = .expiring) (reached : l.duration ≤ l.age.steps) := by
    have due : l.markReached = true := by simp [l.markReached_expiring phase, reached]
    exact leaseMark_falls runs present other phase due (by
      rw [l.afterMark_expiring phase due]
      rfl)
  refine ⟨fun phase reached early => ?_, fun phase reached early => ?_, fun phase reached active => ?_,
    fun phase reached standby => ?_, fun waits => ?_, fun waits => ?_, fun waits => ?_⟩
  · have due : l.markReached = true := by simp [l.markReached_bound phase, reached]
    have taken := leaseMark_falls runs present other phase due (by
      rw [l.afterMark_bound phase due, Lease.markReached_renewDue rfl]
      simpa using early)
    rwa [reachMark, reachT1, leasePhase_of_lease present] at taken
  · have due : l.markReached = true := by simp [l.markReached_renewDue phase, reached]
    have taken := leaseMark_falls runs present other phase due (by
      rw [l.afterMark_renewDue phase due, Lease.markReached_expiring rfl]
      simpa using early)
    rwa [reachMark, reachT2, leasePhase_of_lease present] at taken
  · have taken := lapses phase reached
    rwa [reachMark, lapse_active present (by rwa [s.elapseBefore_activeFeed])] at taken
  · have taken := lapses phase reached
    rwa [reachMark, lapse_standby present (by rwa [s.elapseBefore_activeFeed])] at taken
  · refine leaseMark_waits runs present ?_
    by_cases phase : l.phase = .bound
    · exact .inr (by simpa [l.markReached_bound phase, phase] using waits)
    · exact .inl phase
  · refine leaseMark_waits runs present ?_
    by_cases phase : l.phase = .renewDue
    · exact .inr (by simpa [l.markReached_renewDue phase, phase] using waits)
    · exact .inl phase
  · refine leaseMark_waits runs present ?_
    by_cases phase : l.phase = .expiring
    · exact .inr (by simpa [l.markReached_expiring phase, phase] using waits)
    · exact .inl phase

end Sys2Proof.Machine

/-! ## The Feed Controller: SWITCH_FEED, the windows, and the low-pressure mark -/

namespace Sys2Proof.Machine

open Sys2Proof

/-! ### SWITCH_FEED (R124, R125) -/

theorem exec_switchFeed {p : Port} {s : State} (ready : Ready s p) (permitted : p = .rm ∨ p = .ua ∨ p = .ub) (code : Byte) :
    exec (.switchFeed p [code]) s =
      .next ((switchFeed p code.toNat s).2.answering p 0x24 (switchFeed p code.toNat s).1) :=
  request_handled (h := switchFeed p code.toNat) ready (by simp) (by simpa using permitted)

theorem feedOfCode_idx (f : Feed) : feedOfCode (BitVec.ofNat 8 f.idx.val).toNat = some f := by cases f <;> rfl

theorem feedOfCode_large {n : Nat} (large : 2 ≤ n) : feedOfCode n = none := by
  rw [feedOfCode, if_neg (by omega), if_neg (by omega)]

theorem Port.requester_eq (p : Port) :
    Port.requester p = if p = .ua then Requester.ua else if p = .ub then .ub else .rm := by cases p <;> rfl

section SwitchFeed

variable {p : Port} {s : State} {n : Nat} {target : Feed} {w : Switch}

theorem switchFeed_badValue (large : 2 ≤ n) : switchFeed p n s = refuse .badValue s := by
  simp [switchFeed, feedOfCode_large large]

theorem switchFeed_locked (coded : feedOfCode n = some target) (locked : s.feedLock = true) :
    switchFeed p n s = refuse .locked s := by
  simp [switchFeed, coded, locked]

theorem switchFeed_mode (coded : feedOfCode n = some target) (unlocked : s.feedLock = false) (safe : s.mode = .safe) :
    switchFeed p n s = refuse .mode s := by
  simp [switchFeed, coded, unlocked, safe]

theorem switchFeed_still (coded : feedOfCode n = some target) (unlocked : s.feedLock = false) (safe : s.mode ≠ .safe)
    (still : s.switch = none) :
    switchFeed p n s =
      if target = s.activeFeed then (Reply.plain .ok, s)
      else if (s.feed target).failed then refuse .feedFailed s
      else (Reply.plain .ok, beginSwitch target (Port.requester p) s) := by
  simp [switchFeed, coded, unlocked, safe, still]

theorem switchFeed_inFlight (coded : feedOfCode n = some target) (unlocked : s.feedLock = false) (safe : s.mode ≠ .safe)
    (flying : s.switch = some w) :
    switchFeed p n s =
      if target = w.target then (Reply.plain .ok, s)
      else if w.phase = .opening then (Reply.plain .ok, cancelSwitch w s)
      else refuse .tooLate s := by
  simp [switchFeed, coded, unlocked, safe, flying]

end SwitchFeed

/-- Settles O30: the checks of SWITCH_FEED in their order, with and without a switch in flight. -/
theorem switchFeedBeginsCancelsOrIsRefused : Obligations.SwitchFeedBeginsCancelsOrIsRefused := by
  intro s p target ready permitted ask plain unbarred
  have coded := feedOfCode_idx target
  have asked : ask = _ := exec_switchFeed ready permitted _
  rw [asked]
  refine ⟨fun locked => ?_, fun unlocked safe => ?_, fun ⟨unlocked, safe⟩ still same => ?_,
    fun ⟨unlocked, safe⟩ still other failed => ?_, fun ⟨unlocked, safe⟩ still other clear => ?_,
    fun w ⟨unlocked, safe⟩ flying same => ?_, fun w ⟨unlocked, safe⟩ flying other opening => ?_,
    fun w ⟨unlocked, safe⟩ flying other closing => ?_, fun code large => ?_⟩
  · rw [switchFeed_locked coded locked]; rfl
  · rw [switchFeed_mode coded unlocked safe]; rfl
  · rw [switchFeed_still coded unlocked safe still, if_pos same]; rfl
  · rw [switchFeed_still coded unlocked safe still, if_neg other, if_pos failed]; rfl
  · rw [switchFeed_still coded unlocked safe still, if_neg other, if_neg (by simp [clear]), Port.requester_eq]; rfl
  · rw [switchFeed_inFlight coded unlocked safe flying, if_pos same]; rfl
  · rw [switchFeed_inFlight coded unlocked safe flying, if_neg other, if_pos opening]; rfl
  · rw [switchFeed_inFlight coded unlocked safe flying, if_neg other, if_neg (by simp [closing])]; rfl
  · rw [exec_switchFeed ready permitted, switchFeed_badValue large]; rfl

/-! ### The windows (R126, R127, R135) -/

theorem exec_switchWindowExpiry {s : State} (after : Nat) (runs : s.running = true) :
    exec (.switchWindowExpiry after) s = .next (openingEnds (s.elapse after)) := event_taken runs

theorem exec_closingOldExpiry {s : State} (after : Nat) (runs : s.running = true) :
    exec (.closingOldExpiry after) s = .next (closingOldEnds (s.elapse after)) := event_taken runs

theorem exec_startupWindowExpiry {s : State} (after : Nat) (runs : s.running = true) :
    exec (.startupWindowExpiry after) s = .next (startupEnds (s.elapse after)) := event_taken runs

section Windows

variable {s : State} {w : Switch}

theorem openingEnds_due (flying : s.switch = some w) (ended : w.window.steps = 0) (opening : w.phase = .opening) :
    openingEnds s = failSwitch w s := by
  simp [openingEnds, flying, ended, opening]

theorem closingOldEnds_due (flying : s.switch = some w) (ended : w.window.steps = 0) (closing : w.phase = .closingOld) :
    closingOldEnds s = report .inletStuck (.feed w.origin) none { s with switch := none } := by
  simp [closingOldEnds, flying, ended, closing]

theorem startupEnds_due {k : Timer} (present : s.startup = some k) (ended : k.steps = 0) :
    startupEnds s =
      if (s.feed s.activeFeed.other).failed then { s with startup := none }
      else reportFailover s.activeFeed (changeActive s.activeFeed.other
        ((({ s with startup := none } : State).setInlet s.activeFeed.other .opened).setInlet s.activeFeed .closed)) := by
  have due : isOver s.startup = true := (isOver_iff _).mpr ⟨k, present, ended⟩
  rw [startupEnds, if_pos due]

/-- The state after the fallback of the start-up from feed `f`, before the report (R135). -/
def fallenBack (f : Feed) (s : State) : State :=
  notifyAll .feedChanged
    { (s.setFeed f.other { s.feed f.other with inlet := .opened }).setFeed f { s.feed f with inlet := .closed } with
      startup := none
      activeFeed := f.other
      timer := { s.timer with timing := .free, lockIn := 0, reference := none, interval := none, deadline := none,
                              further := [] } }

theorem fallenBack_feed (f g : Feed) (s : State) :
    (fallenBack f s).feed g =
      if g = f then { s.feed f with inlet := .closed } else if g = f.other then { s.feed f.other with inlet := .opened }
      else s.feed g := by
  change ((s.setFeed f.other _).setFeed f _).feed g = _
  rw [State.setFeed_feed, State.setFeed_feed]

theorem startupEnds_clear {k : Timer} (present : s.startup = some k) (ended : k.steps = 0)
    (clear : (s.feed s.activeFeed.other).failed = false) :
    startupEnds s = report .feedFailover (.feed s.activeFeed) (some (s.pressure s.activeFeed)) (fallenBack s.activeFeed s) := by
  have old : (({ s with startup := none } : State).setInlet s.activeFeed.other .opened).feed s.activeFeed =
      s.feed s.activeFeed := by
    rw [State.setInlet_feed, if_neg (Feed.ne_other _)]
    rfl
  rw [startupEnds_due present ended, if_neg (by simp [clear]), reportFailover, State.setInlet, old]
  rfl

end Windows

/-- Settles O31: each window at its end, and the fallback of the start-up with what it leaves. -/
theorem feedWindowsRunOut : Obligations.FeedWindowsRunOut := by
  intro s after runs u
  have active : u.activeFeed = s.activeFeed := s.elapse_activeFeed after
  rw [exec_switchWindowExpiry after runs, exec_closingOldExpiry after runs, exec_startupWindowExpiry after runs]
  refine ⟨fun w flying ended opening => ?_, fun w flying ended closing => ?_, fun k present ended failed => ?_,
    fun k present ended clear => ?_⟩
  · rw [openingEnds_due flying ended opening]; rfl
  · rw [closingOldEnds_due flying ended closing]
  · rw [startupEnds_due present ended, active, if_pos failed]
  · rw [← active] at clear ⊢
    have fallback := startupEnds_clear present ended clear
    refine ⟨_, rfl, ?_⟩
    rw [fallback]
    refine ⟨?_, ?_, ?_, ?_, ?_, ?_, ?_, ?_, ?_, ?_, ?_⟩
    · rw [← s.elapse_timer after]; rfl
    · rw [report_startup]; rfl
    · rw [report_activeFeed]; rfl
    · rw [report_feed, fallenBack_feed, if_neg (Feed.ne_other _).symm, if_pos rfl]
    · rw [report_feed, fallenBack_feed, if_pos rfl]
    · rw [report_feed, fallenBack_feed, if_pos rfl]
    · rw [report_timer]; rfl
    · rw [report_timer]; rfl
    · rw [report_leases]; rfl
    · rw [report_branches]; rfl
    · rw [report_mode]; exact s.elapse_mode after

/-! ### The low-pressure mark (R129 to R132) -/

section LowPressure

variable {s t : State} {f : Feed}

theorem exec_lowPressureExpiry {after : Nat} {k : Timer} (runs : s.running = true)
    (present : ((s.elapse after).feed f).lowTimer = some k) (reached : s.params.failoverWindow ≤ k.steps) :
    exec (.lowPressureExpiry after f) s = .next (markFailed f (s.elapse after)) := by
  have due : lowPressureDue (s.elapse after) f = true := by
    simp [lowPressureDue, present, reached]
  have taken : exec (.lowPressureExpiry after f) s = .next (lowPressureEnds f (s.elapse after)) := event_taken runs
  rw [taken, lowPressureEnds, if_pos due]

/-- A feed's FAILED mark set by its low-pressure timer (R129). -/
def withMark (f : Feed) (s : State) : State :=
  s.setFeed f { s.feed f with failed := true, lowTimer := none, proof := 0 }

theorem withMark_feed_self (f : Feed) (s : State) :
    (withMark f s).feed f = { s.feed f with failed := true, lowTimer := none, proof := 0 } := by
  rw [withMark, State.setFeed_feed, if_pos rfl]

theorem withMark_feed_other (f : Feed) (s : State) : (withMark f s).feed f.other = s.feed f.other := by
  rw [withMark, State.setFeed_feed, if_neg (Feed.ne_other f).symm]

/-! What follows the mark, by the other feed's mark and the feed's own role. -/

theorem markFailed_failover (clear : (s.feed f.other).failed = false) (active : s.activeFeed = f)
    (enabled : s.params.failoverEnable = true) : markFailed f s = failover f (withMark f s) := by
  simp only [markFailed, clear, active, enabled, Bool.false_eq_true, if_false, if_true]
  rfl

theorem markFailed_reported (clear : (s.feed f.other).failed = false) (active : s.activeFeed = f)
    (disabled : s.params.failoverEnable = false) : markFailed f s = reportFailover f (withMark f s) := by
  simp only [markFailed, clear, active, disabled, Bool.false_eq_true, if_false, if_true]
  rfl

theorem markFailed_standby (clear : (s.feed f.other).failed = false) (standby : s.activeFeed ≠ f) :
    markFailed f s = failSwitchToward f (withMark f s) := by
  simp only [markFailed, clear, standby, Bool.false_eq_true, if_false]
  rfl

theorem markFailed_both (failed : (s.feed f.other).failed = true) :
    markFailed f s = bothFeedsFailed (failSwitchToward f (withMark f s)) := by
  simp only [markFailed, failed, if_true]
  rfl

theorem failSwitchToward_none (none : ∀ w ∈ s.switch, ¬ (w.target = f ∧ w.phase = .opening)) : failSwitchToward f s = s := by
  unfold failSwitchToward
  cases flying : s.switch with
  | none => rfl
  | some w => exact if_neg (none w flying)

theorem failSwitchToward_some {w : Switch} (flying : s.switch = some w) (toward : w.target = f ∧ w.phase = .opening) :
    failSwitchToward f s = report .switchFailed (.feed f) (some (s.pressure f))
      { s.setFeed f { s.feed f with inlet := .closed } with switch := none } := by
  obtain ⟨rfl, opening⟩ := toward
  simp only [failSwitchToward, flying, opening, and_self, if_true]
  rfl

theorem failSwitchToward_cases (f : Feed) (s : State) :
    failSwitchToward f s = s ∨
      failSwitchToward f s = report .switchFailed (.feed f) (some (s.pressure f))
        { s.setFeed f { s.feed f with inlet := .closed } with switch := none } := by
  by_cases none : ∀ w ∈ s.switch, ¬ (w.target = f ∧ w.phase = .opening)
  · exact .inl (failSwitchToward_none none)
  · push Not at none
    obtain ⟨w, flying, target, opening⟩ := none
    exact .inr (failSwitchToward_some flying ⟨target, opening⟩)

theorem failover_withMark (f : Feed) (s : State) :
    failover f (withMark f s) = report .feedFailover (.feed f) (some (s.pressure f))
      { notifyAll .feedChanged
          { ((withMark f s).setFeed f.other { s.feed f.other with inlet := .opened }).setFeed f
              { (withMark f s).feed f with inlet := .closed } with
            activeFeed := f.other
            timer := { s.timer with timing := .free, lockIn := 0, reference := none, interval := none, deadline := none,
                                    further := [] } } with
        switch := none, startup := none, bothOpen := false } := by
  have own : ((withMark f s).setInlet f.other .opened).feed f = (withMark f s).feed f := by
    rw [State.setInlet_feed, if_neg (Feed.ne_other _)]
  have opened : (withMark f s).setInlet f.other .opened =
      (withMark f s).setFeed f.other { s.feed f.other with inlet := .opened } := by
    rw [State.setInlet, withMark_feed_other]
  rw [failover, State.setInlet.eq_1 (f := f), own, opened]
  rfl

theorem failover_withMark_modes (f : Feed) (s : State) :
    (failover f (withMark f s)).faultHold = s.faultHold ∧ (failover f (withMark f s)).mode = s.mode := by
  rw [failover_withMark, report_faultHold, report_mode]
  exact ⟨rfl, rfl⟩

theorem reportFailover_withMark_frame (f : Feed) (s : State) :
    let x := reportFailover f (withMark f s)
    x.activeFeed = s.activeFeed ∧ x.switch = s.switch ∧ x.startup = s.startup ∧ (x.feed f).inlet = (s.feed f).inlet ∧
      x.feed f.other = s.feed f.other ∧ x.faultHold = s.faultHold := by
  simp only [reportFailover, report_activeFeed, report_switch, report_startup, report_feed, report_faultHold,
    withMark_feed_self, withMark_feed_other]
  exact ⟨rfl, rfl, rfl, trivial, trivial, rfl⟩

/-! What every way on from the mark keeps. -/

/-- The feed is marked, its timer stopped and its count 0, and no branch, lease or parameter has changed since `s`. -/
def Marked (f : Feed) (s t : State) : Prop :=
  ((t.feed f).failed = true ∧ (t.feed f).lowTimer = none ∧ (t.feed f).proof = 0) ∧
    t.branches = s.branches ∧ t.leases = s.leases ∧ t.params = s.params

theorem Marked.withMark (f : Feed) (s : State) : Marked f s (withMark f s) := by
  refine ⟨?_, rfl, rfl, rfl⟩
  rw [withMark_feed_self]
  exact ⟨rfl, rfl, rfl⟩

theorem Marked.report (h : Marked f s t) (kind : Kind) (subject : Subject) (detail : Option Int) :
    Marked f s (report kind subject detail t) := by
  rw [Marked, report_feed, report_branches, report_leases, report_params]
  exact h

theorem Marked.setInlet (h : Marked f s t) (g : Feed) (v : Valve) : Marked f s (t.setInlet g v) := by
  obtain ⟨own, rest⟩ := h
  refine ⟨?_, rest⟩
  rw [State.setInlet_feed]
  split
  · rename_i same; subst same; exact own
  · exact own

theorem Marked.failSwitchToward (h : Marked f s t) : Marked f s (failSwitchToward f t) := by
  obtain same | failed := failSwitchToward_cases f t
  · rwa [same]
  · rw [failed]
    exact Marked.report (t := { t.setInlet f .closed with switch := none }) (h.setInlet f .closed) _ _ _

theorem Marked.faultCause (h : Marked f s t) (cause : FaultCause) : Marked f s (faultCause cause t) := by
  unfold Machine.faultCause
  split
  · exact h
  · dsimp only
    split
    · exact h
    · exact Marked.report (t := setMode .safe { t with faultHold := _, park := none }) h _ _ _

theorem Marked.bothFeedsFailed (h : Marked f s t) : Marked f s (bothFeedsFailed t) :=
  (Marked.report (t := { (t.setInlet .a .opened).setInlet .b .opened with switch := none, startup := none, bothOpen := true })
    ((h.setInlet .a .opened).setInlet .b .opened) _ _ _).faultCause _

theorem Marked.failover (h : Marked f s t) : Marked f s (failover f t) :=
  Marked.report (t := { changeActive f.other ((t.setInlet f.other .opened).setInlet f .closed) with
    switch := none, startup := none, bothOpen := false }) ((h.setInlet f.other .opened).setInlet f .closed) _ _ _

theorem marked_markFailed (f : Feed) (s : State) : Marked f s (markFailed f s) := by
  have marked := Marked.withMark f s
  cases other : (s.feed f.other).failed with
  | true => rw [markFailed_both other]; exact marked.failSwitchToward.bothFeedsFailed
  | false =>
    by_cases active : s.activeFeed = f
    · cases enabled : s.params.failoverEnable with
      | true => rw [markFailed_failover other active enabled]; exact marked.failover
      | false => rw [markFailed_reported other active enabled]; exact marked.report _ _ _
    · rw [markFailed_standby other active]; exact marked.failSwitchToward

/-! Both feeds FAILED (R131). -/

theorem faultCause_present (cause : FaultCause) (s : State) : (faultCause cause s).faultHold ≠ none := by
  unfold faultCause
  split
  · exact nofun
  · dsimp only
    split
    · exact nofun
    · rw [enterSafe, report_faultHold]
      exact nofun

theorem faultCause_feeds (cause : FaultCause) (s : State) :
    (faultCause cause s).feeds = s.feeds ∧ (faultCause cause s).activeFeed = s.activeFeed ∧
      (faultCause cause s).switch = s.switch ∧ (faultCause cause s).startup = s.startup ∧
      (faultCause cause s).bothOpen = s.bothOpen := by
  unfold faultCause
  split
  · exact ⟨rfl, rfl, rfl, rfl, rfl⟩
  · dsimp only
    split
    · exact ⟨rfl, rfl, rfl, rfl, rfl⟩
    · simp only [enterSafe, report_feeds, report_activeFeed, report_switch, report_startup, report_bothOpen]
      exact ⟨rfl, rfl, rfl, rfl, rfl⟩

theorem bothFeedsFailed_eq (s : State) :
    bothFeedsFailed s = faultCause .bothFeedsFailed (report .bothFeedsFailed .nothing none
      { (s.setFeed .a { s.feed .a with inlet := .opened }).setFeed .b { s.feed .b with inlet := .opened } with
        switch := none, startup := none, bothOpen := true }) := by
  have second : (s.setInlet .a .opened).setInlet .b .opened =
      (s.setFeed .a { s.feed .a with inlet := .opened }).setFeed .b { s.feed .b with inlet := .opened } := by
    rw [State.setInlet.eq_1 (f := .b), State.setInlet_feed, if_neg (by decide)]
    rfl
  rw [bothFeedsFailed, second]

theorem bothFeedsFailed_effect (s : State) :
    (bothFeedsFailed s).activeFeed = s.activeFeed ∧ (bothFeedsFailed s).switch = none ∧
      (bothFeedsFailed s).startup = none ∧ (bothFeedsFailed s).bothOpen = true ∧
      ((bothFeedsFailed s).feed .a).inlet = .opened ∧ ((bothFeedsFailed s).feed .b).inlet = .opened ∧
      (bothFeedsFailed s).faultHold ≠ none := by
  obtain ⟨feeds, active, switch, startup, bothOpen⟩ := faultCause_feeds .bothFeedsFailed
    (report .bothFeedsFailed .nothing none
      { (s.setInlet .a .opened).setInlet .b .opened with switch := none, startup := none, bothOpen := true })
  rw [report_feeds] at feeds
  rw [report_activeFeed] at active
  rw [report_switch] at switch
  rw [report_startup] at startup
  rw [report_bothOpen] at bothOpen
  have inlet (g : Feed) : (bothFeedsFailed s).feed g = ((s.setInlet .a .opened).setInlet .b .opened).feed g :=
    congrArg (fun v => Vector.get v g.idx) feeds
  refine ⟨active, switch, startup, bothOpen, ?_, ?_, faultCause_present _ _⟩
  · rw [inlet]; simp
  · rw [inlet]; simp

theorem failSwitchToward_activeFeed (f : Feed) (s : State) : (failSwitchToward f s).activeFeed = s.activeFeed := by
  obtain same | failed := failSwitchToward_cases f s
  · rw [same]
  · rw [failed, report_activeFeed]
    rfl

end LowPressure

/-- Settles O32: the mark, by the other feed's mark, the feed's role, FAILOVER_ENABLE and the switch. -/
theorem lowPressureMarksTheFeed : Obligations.LowPressureMarksTheFeed := by
  intro s after k f runs present reached u marked toward failed bothOpened
  have active : u.activeFeed = s.activeFeed := s.elapse_activeFeed after
  have params : u.params = s.params := s.elapse_params after
  obtain ⟨⟨mark, timer, proof⟩, branches, leases, kept⟩ := marked_markFailed f u
  refine ⟨markFailed f u, exec_lowPressureExpiry runs present reached, mark, timer, proof, branches, leases, kept.trans params,
    fun clear own enabled => ?_, fun clear own disabled => ?_, fun clear standby none => ?_,
    fun w clear standby flying aimed => ?_, fun both none => ?_, fun w both flying aimed => ?_, fun both => ?_⟩
  · obtain ⟨faultHold, mode⟩ := failover_withMark_modes f u
    rw [markFailed_failover clear (active.trans own) (by rwa [params])]
    refine ⟨?_, faultHold.trans (s.elapse_faultHold after), mode.trans (s.elapse_mode after)⟩
    rw [failover_withMark, ← s.elapse_timer after]
    rfl
  · obtain ⟨stays, switch, startup, inlet, other, faultHold⟩ := reportFailover_withMark_frame f u
    rw [markFailed_reported clear (active.trans own) (by rwa [params])]
    exact ⟨rfl, stays.trans (active.trans own), switch, startup, inlet, other,
      faultHold.trans (s.elapse_faultHold after)⟩
  · rw [markFailed_standby clear (by rwa [active]), failSwitchToward_none (s := withMark f u) none]
    rfl
  · rw [markFailed_standby clear (by rwa [active]), failSwitchToward_some (s := withMark f u) flying aimed]
    rfl
  · rw [markFailed_both both, failSwitchToward_none (s := withMark f u) none]
    exact bothFeedsFailed_eq _
  · rw [markFailed_both both, failSwitchToward_some (s := withMark f u) flying aimed]
    exact bothFeedsFailed_eq _
  · rw [markFailed_both both]
    have effect := bothFeedsFailed_effect (failSwitchToward f (withMark f u))
    rw [failSwitchToward_activeFeed] at effect
    exact active ▸ effect

end Sys2Proof.Machine

/-! ## The passing of time -/

namespace Sys2Proof.Machine

open Sys2Proof

/-! ### What the marks of the leases leave alone -/

/-- Between two states only what a mark of a lease writes differs: the leases, the handover, the feeds and the switch, and
the reports (R109 to R112). -/
def SameButMarks (s t : State) : Prop :=
  ∃ (leases : Vector (Option Lease) 2) (handover : Option Handover) (feeds : Vector FeedRecord 2) (switch : Option Switch)
    (startup : Option Timer) (bothOpen : Bool) (incidents : IncidentList) (ports : Vector LinkPort 4) (draws : Nat),
    t = { s with
      leases := leases, handover := handover, feeds := feeds, switch := switch, startup := startup, bothOpen := bothOpen,
      incidents := incidents, ports := ports, draws := draws }

theorem SameButMarks.refl (s : State) : SameButMarks s s := ⟨_, _, _, _, _, _, _, _, _, rfl⟩

theorem SameButMarks.trans {s t u : State} (first : SameButMarks s t) (second : SameButMarks t u) : SameButMarks s u := by
  obtain ⟨_, _, _, _, _, _, _, _, _, rfl⟩ := first
  obtain ⟨_, _, _, _, _, _, _, _, _, rfl⟩ := second
  exact ⟨_, _, _, _, _, _, _, _, _, rfl⟩

theorem report_sameButMarks (kind : Kind) (subject : Subject) (detail : Option Int) (s : State) :
    SameButMarks s (report kind subject detail s) := by
  simp only [report]
  split <;> exact ⟨_, _, _, _, _, _, _, _, _, rfl⟩

theorem makeHandoverTest_sameButMarks (f : Feed) (s : State) : SameButMarks s (makeHandoverTest f s) := by
  simp only [makeHandoverTest]
  split <;> exact ⟨_, _, _, _, _, _, _, _, _, rfl⟩

theorem reachMark_sameButMarks (f : Feed) (phase : LeasePhase) (s : State) : SameButMarks s (reachMark f phase s) := by
  cases phase with
  | bound => exact ⟨_, _, _, _, _, _, _, _, _, rfl⟩
  | renewDue =>
    exact .trans (t := notifyAll .leaseExpiring (leasePhase f .expiring s)) ⟨_, _, _, _, _, _, _, _, _, rfl⟩
      (makeHandoverTest_sameButMarks f _)
  | expiring =>
    simp only [reachMark, lapse]
    split
    · refine .trans (t := leasePhase f .lapsed s) ⟨_, _, _, _, _, _, _, _, _, rfl⟩ ?_
      exact (report_sameButMarks _ _ _ _).trans ⟨_, _, _, _, _, _, _, _, _, rfl⟩
    · exact ⟨_, _, _, _, _, _, _, _, _, rfl⟩
  | lapsed => exact .refl s

theorem takeLeaseMark_sameButMarks (f : Feed) (s : State) : SameButMarks s (takeLeaseMark f s) := by
  unfold takeLeaseMark
  split
  · split
    · exact reachMark_sameButMarks f _ s
    · exact .refl s
  · exact .refl s

theorem takeLeaseMarks_sameButMarks (s : State) : SameButMarks s (takeLeaseMarks s) := by
  unfold takeLeaseMarks
  split
  · refine .trans (t := { s with draws := s.draws + 1 }) ⟨_, _, _, _, _, _, _, _, _, rfl⟩ ?_
    dsimp only
    split <;> exact (takeLeaseMark_sameButMarks _ _).trans (takeLeaseMark_sameButMarks _ _)
  · exact (takeLeaseMark_sameButMarks _ _).trans (takeLeaseMark_sameButMarks _ _)

/-! ### The branches and the zones as time passes -/

/-- What a branch's timers and the marks of the leases leave alone, a passage of time leaves alone. -/
theorem State.elapse_branch {α : Type} (p : Branch → α) (same : ∀ x ms runs, p (Branch.elapse ms runs x) = p x) (s : State)
    (ms : Nat) (b : BranchId) : p ((s.elapse ms).branch b) = p (s.branch b) := by
  refine (State.elapse_induction (P := fun t => p (t.branch b) = p (s.branch b)) (fun _ _ h => h) ?_ ?_ ms rfl).2
  · intro t n h
    rw [t.passTime_branch, same, h]
  · intro t h
    obtain ⟨_, _, _, _, _, _, _, _, _, taken⟩ := takeLeaseMarks_sameButMarks t
    rw [taken]
    exact h

/-- What a confirm timer and the marks of the leases leave alone, a passage of time leaves alone. -/
theorem State.elapse_zone {α : Type} (p : Zone → α) (same : ∀ x ms, p (Zone.elapse ms x) = p x) (s : State)
    (ms : Nat) (z : SegId) : p ((s.elapse ms).zone z) = p (s.zone z) := by
  refine (State.elapse_induction (P := fun t => p (t.zone z) = p (s.zone z)) (fun _ _ h => h) ?_ ?_ ms rfl).2
  · intro t n h
    rw [t.passTime_zone, same, h]
  · intro t h
    obtain ⟨_, _, _, _, _, _, _, _, _, taken⟩ := takeLeaseMarks_sameButMarks t
    rw [taken]
    exact h

@[simp] theorem State.elapse_branch_state (s : State) (ms : Nat) (b : BranchId) :
    ((s.elapse ms).branch b).state = (s.branch b).state := s.elapse_branch (·.state) (fun _ _ _ => rfl) ms b

@[simp] theorem State.elapse_zone_state (s : State) (ms : Nat) (z : SegId) :
    ((s.elapse ms).zone z).state = (s.zone z).state := s.elapse_zone (·.state) (fun _ _ => rfl) ms z

@[simp] theorem State.elapse_zone_policy (s : State) (ms : Nat) (z : SegId) :
    ((s.elapse ms).zone z).policy = (s.zone z).policy := s.elapse_zone (·.policy) (fun _ _ => rfl) ms z

/-! ### The marks at the end of a passage of time -/

/-- A lease whose next mark is further off than the time that passes has not reached it then. -/
theorem leaseMarkDue_passTime_early {s : State} {ms : Nat} (early : ∀ d, nextLeaseMark s = some d → ms < d) (f : Feed) :
    leaseMarkDue (s.passTime ms) f = false := by
  unfold leaseMarkDue
  rw [State.passTime_lease]
  cases present : s.lease f with
  | none => rfl
  | some l =>
    rw [Option.map_some]
    dsimp only
    unfold Lease.markReached
    cases mark : (l.elapse ms).mark with
    | none => rfl
    | some m =>
      have own : l.mark = some m := mark
      have moment : l.untilMark = some ((m - l.age.steps) * 100 - l.age.part) := by rw [Lease.untilMark, own]; rfl
      obtain ⟨d, near, next⟩ := nextLeaseMark_le present moment
      have := l.elapse_below ms m own (by have := early d next; omega)
      simpa using this

theorem takeLeaseMarks_none {s : State} (a : leaseMarkDue s .a = false) (b : leaseMarkDue s .b = false) :
    takeLeaseMarks s = s := by
  rw [takeLeaseMarks_one .a b, takeLeaseMark_notDue a]

/-- A mark that falls before the end of a passage of time is taken at its own moment, and the rest of the time passes from
there (notes/assumptions/24.md). -/
theorem State.elapse_mark {s : State} {d ms : Nat} (runs : s.running = true) (next : nextLeaseMark s = some d)
    (before : d < ms) : s.elapse ms = (takeLeaseMarks (s.passTime d)).elapse (ms - d) := by
  have still : (takeLeaseMarks (s.passTime d)).running = true := by
    obtain ⟨_, _, _, _, _, _, _, _, _, taken⟩ := takeLeaseMarks_sameButMarks (s.passTime d)
    rw [taken]
    exact runs
  have left : marksLeft (takeLeaseMarks (s.passTime d)) ≤ 5 := by
    have := marksLeft_lt s d next
    have := marksLeft_le s
    omega
  have steps : passing 6 ms s = passing 6 (ms - d) (takeLeaseMarks (s.passTime d)) := by
    rw [← passing_fuel 5 6 _ _ left (by omega)]
    rw [passing, next]
    exact if_pos before
  rw [State.elapse_running_eq runs, State.elapse_running_eq still, State.elapseBefore, State.elapseBefore, if_pos runs,
    if_pos still, steps]

theorem State.elapse_atMark {s : State} {ms : Nat} (runs : s.running = true) (next : nextLeaseMark s = some ms) :
    s.elapse ms = takeLeaseMarks (s.passTime ms) := by
  have steps : passing 6 ms s = s.passTime ms := by
    rw [passing, next]
    exact if_neg (Nat.lt_irrefl ms)
  rw [State.elapse_running_eq runs, State.elapseBefore, if_pos runs, steps]

theorem State.elapse_early {s : State} {ms : Nat} (runs : s.running = true) (early : ∀ d, nextLeaseMark s = some d → ms < d) :
    s.elapse ms = s.passTime ms := by
  rw [State.elapse_plain runs early, takeLeaseMarks_none (leaseMarkDue_passTime_early early .a)
    (leaseMarkDue_passTime_early early .b)]

/-- Settles O17: the marks that fall in the time, and each timer, window and age over a time without one. -/
theorem timeRunsTheTimers : Obligations.TimeRunsTheTimers := by
  intro s ms down up upTo u
  refine ⟨s.elapse_clock ms, fun stopped => State.elapse_stopped stopped ms,
    fun runs => ⟨State.elapse_early runs, State.elapse_atMark runs, fun d => State.elapse_mark runs⟩, rfl, fun b => ?_, rfl,
    s.passTime_lease ms, s.passTime_feed ms, rfl, rfl, s.passTime_zone ms, rfl, rfl⟩
  rw [s.passTime_branch, Branch.elapse]
  by_cases held : s.mode = .hold
  · simp only [held]
    rfl
  · have moving : (s.mode != .hold) = true := by simpa using held
    simp only [moving, held, if_false, if_true]
    rfl

end Sys2Proof.Machine

/-! ## Drips, isolation, fault hold and the modes -/

namespace Sys2Proof.Machine

open Sys2Proof

/-! ### A branch judged on a report (R43, R44, R157) -/

section Judgement

variable {s : State} {b : BranchId}

theorem judgeBranch_priming (primes : (s.branch b).state = .priming) : judgeBranch s b = primingJudgement b s := by
  unfold judgeBranch
  rw [primes]

theorem judgeBranch_isolating (isolates : (s.branch b).state = .isolating) : judgeBranch s b = isolationProgress b s := by
  unfold judgeBranch
  rw [isolates]

theorem judgeBranch_other (primes : (s.branch b).state ≠ .priming) (isolates : (s.branch b).state ≠ .isolating) :
    judgeBranch s b = s := by
  unfold judgeBranch
  split <;> simp_all

theorem isolationProgress_supplyClosing (phase : (s.branch b).subPhase = some .supplyClosing) :
    isolationProgress b s =
      if (s.measure b).supplyFeedback ≤ 10 then
        s.setBranch b { s.branch b with ret := .closed, subPhase := some .returnClosing }
      else s := by
  unfold isolationProgress
  dsimp only
  rw [phase]

theorem isolationProgress_returnClosing (phase : (s.branch b).subPhase = some .returnClosing) :
    isolationProgress b s =
      if (s.measure b).returnFeedback = .closed ∧ (s.measure b).supplyFlow ≤ s.params.residualFlow then
        report .branchIsolated (.branch b) ((s.branch b).reason.map fun r => (r.code : Int))
          (enter b (s.branch b).toIsolated s)
      else s := by
  unfold isolationProgress
  dsimp only
  rw [phase]

end Judgement

/-- Settles O37: the judgement by the branch's state and, in ISOLATING, by its sub-phase. -/
theorem reportsProveAndClose : Obligations.ReportsProveAndClose := by
  intro s b x m
  refine ⟨fun primes low => ?_, fun primes flows early => ?_, fun primes flows third => ?_, fun isolates phase shut => ?_,
    fun isolates phase ajar => ?_, fun why isolates phase reason shut still => ?_, fun isolates phase ajar => ?_,
    fun primes isolates => judgeBranch_other primes isolates⟩
  · rw [judgeBranch_priming primes, primingJudgement, if_neg (Nat.not_le.mpr low)]
  · rw [judgeBranch_priming primes, primingJudgement, if_pos flows, if_neg (Nat.not_le.mpr (Nat.add_lt_add_right early 1))]
  · rw [judgeBranch_priming primes, primingJudgement, if_pos flows, if_pos (Nat.add_le_add_right third 1), Branch.toFlowing,
      MapEntry.startTtl_eq]
    rfl
  · rw [judgeBranch_isolating isolates, isolationProgress_supplyClosing phase, if_pos shut]
  · rw [judgeBranch_isolating isolates, isolationProgress_supplyClosing phase, if_neg (Nat.not_le.mpr ajar)]
  · rw [judgeBranch_isolating isolates, isolationProgress_returnClosing phase, if_pos ⟨shut, still⟩,
      congrArg (Option.map fun r : IsolationReason => (r.code : Int)) (show (s.branch b).reason = some why from reason)]
    rfl
  · rw [judgeBranch_isolating isolates, isolationProgress_returnClosing phase, if_neg]
    rintro ⟨shut, still⟩
    obtain other | flows := ajar
    · exact other shut
    · exact absurd still (Nat.not_le.mpr flows)

/-! ### The drip decision (R144 to R146) -/

section Decision

variable {s t : State} {z : SegId}

theorem exposedOf_congr (states : ∀ b, (t.branch b).state = (s.branch b).state) : exposedOf t z = exposedOf s z := by
  simp only [exposedOf, states]

theorem suspectsOf_congr (states : ∀ b, (t.branch b).state = (s.branch b).state) (drips : ∀ b, t.drip b = s.drip b) :
    suspectsOf t z = suspectsOf s z := by
  simp only [suspectsOf, exposedOf_congr states, drips]

theorem suspectsOf_unexposed (none : exposedOf s z = []) : suspectsOf s z = [] := by
  rw [suspectsOf, none]
  rfl

theorem decision_dry (dry : (s.zone z).state = .dry) : decision z s = isolateAll .hardImbalance (hardOf s z) s := by
  unfold decision
  rw [dry]

theorem decision_damp (damp : (s.zone z).state = .damp) :
    decision z s = isolateAll .confirmedImbalance (suspectsOf s z) s := by
  unfold decision
  rw [damp]

theorem decision_wet (wet : (s.zone z).state = .wet) :
    decision z s =
      if suspectsOf s z = [] then confirmEvaluate z s
      else isolateAll .confirmedImbalance (suspectsOf s z) (stopConfirm z s) := by
  unfold decision
  rw [wet]

theorem stopConfirm_zone_state (z : SegId) (s : State) : ((stopConfirm z s).zone z).state = (s.zone z).state := by
  rw [stopConfirm, State.setZone_zone, if_pos rfl]

theorem stopConfirm_zone_policy (z : SegId) (s : State) : ((stopConfirm z s).zone z).policy = (s.zone z).policy := by
  rw [stopConfirm, State.setZone_zone, if_pos rfl]

theorem stopConfirm_stopConfirm (z : SegId) (s : State) : stopConfirm z (stopConfirm z s) = stopConfirm z s :=
  stopConfirm_setZone z _ s

/-- The end of the confirm timer with suspects is the decision's isolation of them. -/
theorem confirmEnds_suspects (wet : (s.zone z).state = .wet) (some : suspectsOf s z ≠ []) :
    confirmEnds z s = isolateAll .confirmedImbalance (suspectsOf s z) (stopConfirm z s) := by
  have suspects : suspectsOf (stopConfirm z s) z = suspectsOf s z := rfl
  rw [confirmEnds, suspects, if_neg fun h => some h.2, decision_wet (by rw [stopConfirm_zone_state, wet]), suspects, if_neg some,
    stopConfirm_stopConfirm]

theorem confirmEnds_unexposed (wet : (s.zone z).state = .wet) (none : exposedOf s z = []) :
    confirmEnds z s = stopConfirm z s := by
  have exposed : exposedOf (stopConfirm z s) z = exposedOf s z := rfl
  have suspects : suspectsOf (stopConfirm z s) z = suspectsOf s z := rfl
  rw [confirmEnds, suspects, exposed, if_pos ⟨by rw [stopConfirm_zone_state, wet], suspectsOf_unexposed none⟩, if_pos none]

theorem confirmEnds_auto (wet : (s.zone z).state = .wet) (clean : suspectsOf s z = []) (some' : exposedOf s z ≠ [])
    (auto : (s.zone z).policy = .auto) :
    confirmEnds z s = report .zoneIsolated (.zone z) (some (exposedOf s z).length)
      (isolateAll .zoneWet (exposedOf s z) (stopConfirm z s)) := by
  have exposed : exposedOf (stopConfirm z s) z = exposedOf s z := rfl
  have suspects : suspectsOf (stopConfirm z s) z = suspectsOf s z := rfl
  rw [confirmEnds, suspects, exposed, stopConfirm_zone_policy, auto, if_pos ⟨by rw [stopConfirm_zone_state, wet], clean⟩, if_neg some']

theorem confirmEnds_report (wet : (s.zone z).state = .wet) (clean : suspectsOf s z = []) (some' : exposedOf s z ≠ [])
    (reported : (s.zone z).policy = .report) :
    confirmEnds z s = report .zoneWet (.zone z) none (stopConfirm z s) := by
  have exposed : exposedOf (stopConfirm z s) z = exposedOf s z := rfl
  have suspects : suspectsOf (stopConfirm z s) z = suspectsOf s z := rfl
  rw [confirmEnds, suspects, exposed, stopConfirm_zone_policy, reported, if_pos ⟨by rw [stopConfirm_zone_state, wet], clean⟩,
    if_neg some']

theorem exec_confirmExpiry_due {after : Nat} {c : ConfirmTimer} (runs : s.running = true)
    (present : ((s.elapse after).zone z).confirm = some c) (ended : c.remaining.steps = 0) (moving : c.running = true) :
    exec (.confirmExpiry after z) s = .next (confirmEnds z (s.elapse after)) := by
  have due : confirmDue (s.elapse after) z = true := by simp [confirmDue, present, ended, moving]
  exact event_due (due := fun t => confirmDue t z) runs due

end Decision

/-- Settles O40: the decision by the zone's state, and the end of the confirm timer by whom it finds. -/
theorem theDecisionIsolatesSuspects : Obligations.TheDecisionIsolatesSuspects := by
  intro s z exposed suspects hard without
  have exposedIs : exposedOf s z = exposed := rfl
  have suspectsIs : suspectsOf s z = suspects := rfl
  refine ⟨fun dry => decision_dry dry, fun damp => decision_damp damp, fun wet some => ?_, fun wet clean none => ?_,
    fun wet clean some fresh => ?_, fun wet clean some waiting => ?_, fun after c runs present ended moving wet => ?_,
    fun _ _ _ => rfl⟩
  · rw [decision_wet wet, suspectsIs, if_neg some]
    rfl
  · rw [decision_wet wet, suspectsIs, if_pos clean, confirmEvaluate, exposedIs, if_pos none]
    rfl
  · rw [decision_wet wet, suspectsIs, if_pos clean, confirmEvaluate, exposedIs, if_neg some, if_pos fresh]
  · rw [decision_wet wet, suspectsIs, if_pos clean, confirmEvaluate, exposedIs, if_neg some, if_neg waiting]
  · have exposedLater : exposedOf (s.elapse after) z = exposed := exposedOf_congr fun b => s.elapse_branch_state after b
    have suspectsLater : suspectsOf (s.elapse after) z = suspects :=
      suspectsOf_congr (fun b => s.elapse_branch_state after b) fun b => s.elapse_drip after b
    have wetLater : ((s.elapse after).zone z).state = .wet := (s.elapse_zone_state after z).trans wet
    rw [exec_confirmExpiry_due runs present ended moving]
    refine ⟨fun some => ?_, fun none => ?_, fun clean some auto => ?_, fun clean some reported => ?_⟩
    · rw [confirmEnds_suspects wetLater (by rwa [suspectsLater]), suspectsLater]
      rfl
    · rw [confirmEnds_unexposed wetLater (by rwa [exposedLater])]
      rfl
    · rw [confirmEnds_auto wetLater (by rwa [suspectsLater]) (by rwa [exposedLater]) (by rwa [s.elapse_zone_policy]),
        exposedLater]
      rfl
    · rw [confirmEnds_report wetLater (by rwa [suspectsLater]) (by rwa [exposedLater]) (by rwa [s.elapse_zone_policy])]
      rfl

/-! ### The panel's zone requests (R142, R143) -/

/-- A request addressed by the zone index in its first byte reaches that zone. -/
theorem request_zoned {p : Port} {code : Byte} {lengths : List Nat} {allowed : List Port} {rest : List Byte} {s : State}
    {z : SegId} {g : SegId → Handler} (ready : Ready s p) (length : rest.length + 1 ∈ lengths) (permitted : p ∈ allowed) :
    request p code lengths allowed (BitVec.ofNat 8 z.val :: rest) (byZone (at1 (BitVec.ofNat 8 z.val :: rest) 0) g) s =
      .next ((g z s).2.answering p code (g z s).1) := by
  rw [request_handled ready length permitted, at1_zoneByte, byZone_val]

theorem exec_clearZone {s : State} (ready : Ready s .sp) (z : SegId) :
    exec (.clearZone .sp [BitVec.ofNat 8 z.val]) s =
      .next ((clearZone z s).2.answering .sp 0x34 (clearZone z s).1) :=
  request_zoned (rest := []) ready (by simp) (by simp)

theorem exec_setZonePolicy {s : State} (ready : Ready s .sp) (z : SegId) (code : Byte) :
    exec (.setZonePolicy .sp [BitVec.ofNat 8 z.val, code]) s =
      .next ((setZonePolicy code.toNat z s).2.answering .sp 0x35 (setZonePolicy code.toNat z s).1) :=
  request_zoned (rest := [code]) (g := setZonePolicy code.toNat) ready (by simp) (by simp)

section ClearZone

variable {s : State} {z : SegId}

theorem clearZone_dry (dry : (s.zone z).state = .dry) : clearZone z s = (Reply.plain .ok, s) := by
  unfold clearZone
  rw [dry]

theorem clearZone_damp (damp : (s.zone z).state = .damp) : clearZone z s = refuse .wrongState s := by
  unfold clearZone
  rw [damp]

theorem clearZone_wet (wet : (s.zone z).state = .wet) :
    clearZone z s =
      if (s.segment z).link = .online ∧ 3 ≤ (s.zone z).dry then
        (Reply.plain .ok, s.setZone z { s.zone z with state := .dry, rise := 0, dry := 0, confirm := none })
      else refuse .zoneWet s := by
  unfold clearZone
  rw [wet]
  dsimp only
  rw [stopConfirm_setZone]
  rfl

end ClearZone

theorem zonePolicyOfCode_code (policy : ZonePolicy) :
    zonePolicyOfCode (BitVec.ofNat 8 policy.code).toNat = some policy := by cases policy <;> rfl

theorem zonePolicyOfCode_large {n : Nat} (large : 2 ≤ n) : zonePolicyOfCode n = none := by
  rw [zonePolicyOfCode, if_neg (by omega), if_neg (by omega)]

/-- Settles O41: CLEAR_ZONE by the zone's state, SET_ZONE_POLICY by its code. -/
theorem zonesAreClearedByThePanel : Obligations.ZonesAreClearedByThePanel := by
  intro s z ready ask plain
  have asked : ask = _ := exec_clearZone ready z
  rw [asked]
  refine ⟨fun dry => ?_, fun damp => ?_, fun wet online dried => ?_, fun wet early => ?_, fun policy => ?_,
    fun code large => ?_⟩
  · rw [clearZone_dry dry]; rfl
  · rw [clearZone_damp damp]; rfl
  · rw [clearZone_wet wet, if_pos ⟨online, dried⟩]; rfl
  · rw [clearZone_wet wet, if_neg]
    · rfl
    · rintro ⟨online, dried⟩
      obtain other | few := early
      · exact other online
      · exact absurd dried (Nat.not_le.mpr few)
  · rw [exec_setZonePolicy ready, setZonePolicy, zonePolicyOfCode_code]; rfl
  · rw [exec_setZonePolicy ready, setZonePolicy, zonePolicyOfCode_large large]; rfl

/-! ### Isolation orders (R155, R160) -/

section Orders

variable {s : State} {b : BranchId} {why : IsolationReason}

theorem isolate_fresh (fresh : (s.branch b).state ∉ [BranchState.isolating, .isolated, .isolateFault]) :
    isolate why b s = notifyAll .branchChanged
      (handMark b true (s.setBranch b (Branch.toIsolating why s.params.isolateWindow))) := by
  cases state : (s.branch b).state <;> simp_all [isolate, orderTakes, takeOrder, BranchState.isIsolation]

theorem isolate_retried (faulted : (s.branch b).state = .isolateFault) :
    isolate .panel b s =
      notifyAll .branchChanged (s.setBranch b (Branch.toIsolating .panel s.params.isolateWindow)) := by
  simp [isolate, orderTakes, takeOrder, faulted, BranchState.isIsolation]

theorem isolate_faulted_other (faulted : (s.branch b).state = .isolateFault) (other : why ≠ .panel) : isolate why b s = s := by
  simp [isolate, orderTakes, faulted, other]

theorem isolate_underway (underway : (s.branch b).state = .isolating ∨ (s.branch b).state = .isolated) :
    isolate why b s = s := by
  obtain isolating | isolated := underway
  · simp [isolate, orderTakes, isolating]
  · simp [isolate, orderTakes, isolated]

theorem exec_isolateBranch (ready : Ready s .sp) (b : BranchId) :
    exec (.isolateBranch .sp [BitVec.ofNat 8 b.val]) s =
      .next ((isolate .panel b s).answering .sp 0x30 { status := .ok, body := [] }) := by
  refine request_accepted ready (by simp) (by simp) ?_
  rw [at1_branchByte, byBranch_val]
  rfl

theorem exec_isolateZone (ready : Ready s .sp) (z : SegId) :
    exec (.isolateZone .sp [BitVec.ofNat 8 z.val]) s =
      .next ((isolateAll .panel (zoneBranches z) (stopConfirm z s)).answering .sp 0x31 { status := .ok, body := [] }) :=
  request_zoned (rest := [])
    (g := fun z t => (Reply.plain .ok, isolateAll .panel (zoneBranches z) (stopConfirm z t))) ready (by simp) (by simp)

end Orders

/-- Settles O42: an order by the branch's state, and the two panel requests. -/
theorem isolationOrdersTakeEffect : Obligations.IsolationOrdersTakeEffect := by
  intro s b why order closing
  refine ⟨fun fresh => isolate_fresh fresh, ?_, fun faulted other => isolate_faulted_other faulted other,
    fun underway => isolate_underway underway, fun ready => exec_isolateBranch ready b, fun z ready => exec_isolateZone ready z⟩
  rintro faulted rfl
  exact isolate_retried faulted

/-! ### The isolation fault and fault hold (R158, R163, R164, R166, R167) -/

theorem exec_isolateWindowExpiry (after : Nat) (b : BranchId) (s : State) :
    exec (.isolateWindowExpiry after b) s =
      event after (fun t => if timerDue t b .isolating then isolateWindowEnds b t else t) s := rfl

section FaultHold

variable {s : State} {cause : FaultCause} {h : FaultHold}

theorem faultCause_first (calm : s.faultHold = none) :
    faultCause cause s =
      notifyAll .modeChanged { s with faultHold := some { first := cause, began := s.uptime, count := 1 } } := by
  unfold faultCause
  rw [calm]

theorem faultCause_again (present : s.faultHold = some h) :
    faultCause cause s =
      if s.mode = .safe then { s with faultHold := some { h with count := min (h.count + 1) 255 } }
      else enterSafe (min (h.count + 1) 255) { s with faultHold := some { h with count := min (h.count + 1) 255 } } := by
  unfold faultCause
  rw [present]

end FaultHold

/-- Settles O44: the end of an isolation window, and a fault-hold cause by what it finds. -/
theorem anIsolationFaultEscalates : Obligations.AnIsolationFaultEscalates := by
  intro s after b runs u x
  refine ⟨fun k isolates present ended => ?_, fun cause => ⟨fun calm => faultCause_first calm, fun h present safe => ?_,
    fun h present safe => ?_⟩⟩
  · rw [exec_isolateWindowExpiry, event_due runs ((timerDue_iff _ _ _).mpr ⟨isolates, k, present, ended⟩)]
    rfl
  · rw [faultCause_again present, if_pos safe]
  · rw [faultCause_again present, if_neg safe]
    rfl

theorem faultStands_iff (s : State) :
    faultStands s = true ↔
      (∃ b, (s.branch b).state = .isolateFault) ∨ ((s.feed .a).failed = true ∧ (s.feed .b).failed = true) := by
  simp [faultStands, allBranches]

section Panel

variable {s : State} {h : Handler} {code : Byte}

/-- A request of the safety panel without a body. -/
theorem request_panel (ready : Ready s .sp) : request .sp code [0] [.sp] [] h s = .next ((h s).2.answering .sp code (h s).1) :=
  request_handled ready (by simp) (by simp)

end Panel

/-- Settles O45: each request by its checks in order. -/
theorem holdAndFaultHoldAreCleared : Obligations.HoldAndFaultHoldAreCleared := by
  intro s ready stands answer mode
  have standing : faultStands s = true ↔ stands := faultStands_iff s
  have holds : exec (.hold .sp []) s = _ := request_panel (h := hold) ready
  have releases : exec (.releaseHold .sp []) s = _ := request_panel (h := releaseHold) ready
  have clears : exec (.clearFault .sp []) s = _ := request_panel (h := clearFault) ready
  have clearsSafe : exec (.clearSafe .sp []) s = _ := request_panel (h := clearSafe) ready
  rw [holds, releases, clears, clearsSafe]
  refine ⟨?_, ?_, fun safe => ?_, fun safe calm => ?_, fun safe held bars => ?_, fun safe held clear => ?_, fun safe => ?_,
    fun safe bars => ?_, fun safe clear => ?_⟩
  · unfold hold
    split <;> rfl
  · unfold releaseHold
    split <;> rfl
  · rw [clearFault, if_pos safe]; rfl
  · rw [clearFault, if_neg safe, if_pos calm]; rfl
  · rw [clearFault, if_neg safe, if_neg held, if_pos (standing.mpr bars)]; rfl
  · rw [clearFault, if_neg safe, if_neg held, if_neg (standing.not.mpr clear)]; rfl
  · rw [clearSafe, if_pos safe]; rfl
  · rw [clearSafe, if_neg (not_not.mpr safe), if_pos (standing.mpr bars)]; rfl
  · rw [clearSafe, if_neg (not_not.mpr safe), if_neg (standing.not.mpr clear)]; rfl

end Sys2Proof.Machine

/-! ## Restoration and parking -/

namespace Sys2Proof.Machine

open Sys2Proof

/-! ### The mark write queue as a mark write is handed on (R194) -/

theorem mem_queueMark_self (b : BranchId) (value : Bool) (queue : List MarkEntry) :
    { branch := b, value := value } ∈ queueMark b value queue := by
  unfold queueMark
  split
  · rename_i queued
    obtain ⟨e, here, same⟩ := List.any_eq_true.mp queued
    have own : e.branch = b := by simpa using same
    refine List.mem_map.mpr ⟨e, here, ?_⟩
    subst own
    simp
  · simp

theorem mem_queueMark_other {b : BranchId} {value : Bool} {queue : List MarkEntry} {e : MarkEntry} (other : e.branch ≠ b)
    (here : e ∈ queue) : e ∈ queueMark b value queue := by
  unfold queueMark
  split
  · exact List.mem_map.mpr ⟨e, here, if_neg other⟩
  · exact List.mem_append_left _ here

/-! ### RESTORE_BRANCH (R15, R60, R161) -/

/-- The record of a restored branch (R60). -/
def MapEntry.restored (e : MapEntry) : Branch :=
  { state := if e.slotTag = none then .unmapped else .vacant, attempts := 0, timer := none, proof := 0, ttl := none,
    pin := none, target := none, supply := 0, ret := .closed, subPhase := none, reason := none, isolationMark := false,
    hot := false }

theorem MapEntry.restored_isRestorable (e : MapEntry) : e.restored.state.isRestorable = false := by
  unfold MapEntry.restored
  dsimp only
  split <;> rfl

theorem restore_eq (b : BranchId) (s : State) :
    restore b s = notifyAll .branchChanged
      (((handMark b false (s.setDrip b { s.drip b with amount := 0, level := .none })).withPlan b
        { demand := 0, floor := 100, cap := 2000, weight := 8 }).setBranch b (s.entry b).restored) := rfl

section Restore

variable {s : State} {b c : BranchId}

theorem restore_branch (b c : BranchId) (s : State) :
    (restore b s).branch c = if c = b then (s.entry b).restored else s.branch c := by
  rw [restore_eq, notifyAll_branch, State.setBranch_branch]
  rfl

theorem restore_drip (b c : BranchId) (s : State) :
    (restore b s).drip c = if c = b then { s.drip b with amount := 0, level := .none } else s.drip c := by
  rw [restore_eq, notifyAll_drip, State.setBranch_drip]
  exact State.setDrip_drip ..

theorem restore_pendingPlan (b c : BranchId) (s : State) :
    (restore b s).pendingPlan c = if c = b then PlanEntry.default else s.pendingPlan c :=
  get_put s.planPending b c PlanEntry.default

theorem restore_activePlan (b c : BranchId) (s : State) :
    (restore b s).activePlan c = if c = b then PlanEntry.default else s.activePlan c :=
  get_put s.planActive b c PlanEntry.default

theorem restore_entry (b c : BranchId) (s : State) : (restore b s).entry c = s.entry c := by
  rw [restore_eq, notifyAll_entry, State.setBranch_entry]
  rfl

theorem restore_queue (b : BranchId) (s : State) : (restore b s).store.queue = queueMark b false s.store.queue := rfl

theorem restoreBranch_wrongState (other : (s.branch b).state.isRestorable = false) :
    restoreBranch b s = refuse .wrongState s := if_pos other

theorem restoreBranch_wet (isolated : (s.branch b).state.isRestorable = true) (wet : (s.zone (zoneOf b)).state = .wet) :
    restoreBranch b s = refuse .zoneWet s := by
  simp [restoreBranch, isolated, wet]

theorem restoreBranch_restores (isolated : (s.branch b).state.isRestorable = true)
    (dry : (s.zone (zoneOf b)).state ≠ .wet) : restoreBranch b s = (Reply.plain .ok, restore b s) := by
  simp [restoreBranch, isolated, dry]

theorem restoreByRack_notPermitted (reserved : (s.entry b).authority = .safetyOnly) :
    restoreByRack b s = refuse .notPermitted s := if_pos reserved

theorem restoreByRack_permitted (shared : (s.entry b).authority = .safetyOrRack) :
    restoreByRack b s = restoreBranch b s := by
  simp [restoreByRack, shared]

theorem exec_restoreBranch_panel (ready : Ready s .sp) (b : BranchId) :
    exec (.restoreBranch .sp [BitVec.ofNat 8 b.val]) s =
      .next ((restoreBranch b s).2.answering .sp 0x32 (restoreBranch b s).1) := by
  refine request_accepted (h := byBranch (at1 [BitVec.ofNat 8 b.val] 0) restoreBranch) ready (by simp) (by simp) ?_
  rw [at1_branchByte, byBranch_val]

theorem exec_restoreBranch_rack {tag : Byte} (ready : Ready s .rm) (carries : Carries s b tag.toNat) :
    exec (.restoreBranch .rm [tag]) s =
      .next ((restoreByRack b s).2.answering .rm 0x32 (restoreByRack b s).1) :=
  request_tagged (g := restoreByRack) (body := [tag]) ready (by simp) (by simp) carries

end Restore

/-! ### RESTORE_ZONE (R162) -/

/-- RESTORE_ZONE's turn at one branch of the zone. -/
def restoreTurn (s : State) (b : BranchId) : State := if (s.branch b).state.isRestorable then restore b s else s

/-- What the restore of a list of branches has done: each that is ISOLATED or ISOLATE_FAULT is restored, every other one
left alone. -/
structure RestoredOver (bs : List BranchId) (s t : State) : Prop where
  entry : ∀ c, t.entry c = s.entry c
  restored : ∀ c ∈ bs, (s.branch c).state.isRestorable = true →
    t.branch c = (s.entry c).restored ∧ t.drip c = { s.drip c with amount := 0, level := .none } ∧
      t.pendingPlan c = PlanEntry.default ∧ t.activePlan c = PlanEntry.default ∧
      { branch := c, value := false } ∈ t.store.queue
  left : ∀ c, (c ∉ bs ∨ (s.branch c).state.isRestorable = false) →
    t.branch c = s.branch c ∧ t.drip c = s.drip c ∧ t.pendingPlan c = s.pendingPlan c ∧ t.activePlan c = s.activePlan c

theorem RestoredOver.nil (s : State) : RestoredOver [] s s :=
  ⟨fun _ => rfl, nofun, fun _ _ => ⟨rfl, rfl, rfl, rfl⟩⟩

theorem RestoredOver.next {bs : List BranchId} {s t : State} {b : BranchId} (h : RestoredOver bs s t) (fresh : b ∉ bs) :
    RestoredOver (bs ++ [b]) s (restoreTurn t b) := by
  obtain ⟨entry, restored, left⟩ := h
  obtain ⟨branchB, dripB, pendingB, activeB⟩ := left b (.inl fresh)
  unfold restoreTurn
  rw [branchB]
  split
  · rename_i isolated
    refine ⟨fun c => (restore_entry b c t).trans (entry c), fun c listed was => ?_, fun c spared => ?_⟩
    · rw [restore_branch, restore_drip, restore_pendingPlan, restore_activePlan, restore_queue]
      by_cases own : c = b
      · subst own
        rw [if_pos rfl, if_pos rfl, if_pos rfl, if_pos rfl, entry, dripB]
        exact ⟨rfl, rfl, rfl, rfl, mem_queueMark_self _ _ _⟩
      · rw [if_neg own, if_neg own, if_neg own, if_neg own]
        obtain ⟨branch, drip, pending, active, queued⟩ := restored c (by simpa [own] using listed) was
        exact ⟨branch, drip, pending, active, mem_queueMark_other own queued⟩
    · rw [restore_branch, restore_drip, restore_pendingPlan, restore_activePlan]
      have own : c ≠ b := by
        rintro rfl
        simp [isolated] at spared
      rw [if_neg own, if_neg own, if_neg own, if_neg own]
      exact left c (by simpa [own] using spared)
  · rename_i other
    refine ⟨entry, fun c listed was => ?_, fun c spared => left c (by simp only [List.mem_append] at spared; tauto)⟩
    have own : c ≠ b := by
      rintro rfl
      exact other was
    exact restored c (by simpa [own] using listed) was

theorem branchAt_ne (z : SegId) {i j : Fin 3} (apart : i ≠ j) : branchAt z i ≠ branchAt z j := by
  intro same
  have : 3 * z.val + i.val = 3 * z.val + j.val := congrArg Fin.val same
  exact apart (Fin.ext (by omega))

theorem restoredOver_zone (z : SegId) (s : State) :
    RestoredOver (zoneBranches z) s
      (restoreTurn (restoreTurn (restoreTurn s (branchAt z 0)) (branchAt z 1)) (branchAt z 2)) := by
  have first := (RestoredOver.nil s).next (b := branchAt z 0) (by simp)
  have second := first.next (b := branchAt z 1) (by simpa using branchAt_ne z (by decide))
  exact second.next (b := branchAt z 2) (by simpa using ⟨branchAt_ne z (by decide), branchAt_ne z (by decide)⟩)

theorem mem_zoneBranches (z : SegId) (c : BranchId) : c ∈ zoneBranches z ↔ zoneOf c = z := by
  simp only [zoneBranches, branchAt, zoneOf, List.mem_cons, List.not_mem_nil, or_false, Fin.ext_iff, Fin.val_zero, Fin.val_one,
    Fin.val_two]
  omega

theorem exec_restoreZone {s : State} (ready : Ready s .sp) (z : SegId) :
    exec (.restoreZone .sp [BitVec.ofNat 8 z.val]) s =
      .next ((restoreZone z s).2.answering .sp 0x33 (restoreZone z s).1) :=
  request_zoned (rest := []) ready (by simp) (by simp)

theorem restoreZone_dry {s : State} {z : SegId} (dry : (s.zone z).state ≠ .wet) :
    restoreZone z s = (Reply.plain .ok, [branchAt z 0, branchAt z 1, branchAt z 2].foldl restoreTurn s) := if_neg dry

/-- Settles O43: the two requests of one branch by their checks, and the zone's by its turns. -/
theorem restoringRestsTheBranch : Obligations.RestoringRestsTheBranch := by
  intro s b tag atRest atDefaults restored rested taken fromPanel fromRack answer isolated
  have panel (ready : Ready s .sp) : fromPanel = _ := exec_restoreBranch_panel ready b
  have rack (ready : Ready s .rm) (carries : Carries s b tag.toNat) : fromRack = _ := exec_restoreBranch_rack ready carries
  have restorable (c : BranchId) :
      (s.branch c).state.isRestorable = true ↔ (s.branch c).state = .isolated ∨ (s.branch c).state = .isolateFault :=
    BranchState.isRestorable_iff _
  have unrestorable (h : ¬ isolated) : (s.branch b).state.isRestorable = false := by
    rw [Bool.eq_false_iff, Ne, restorable]
    exact h
  refine ⟨fun ready other => ?_, fun ready held wet => ?_, fun ready held dry => ?_, fun ready carries reserved => ?_,
    fun ready carries shared other => ?_, fun ready carries shared held wet => ?_, fun ready carries shared held dry => ?_,
    fun z ready wet => ?_, fun z ready dry => ?_⟩
  · rw [panel ready, restoreBranch_wrongState (unrestorable other)]; rfl
  · rw [panel ready, restoreBranch_wet ((restorable b).mpr held) wet]; rfl
  · rw [panel ready, restoreBranch_restores ((restorable b).mpr held) dry]; rfl
  · rw [rack ready carries, restoreByRack_notPermitted reserved]; rfl
  · rw [rack ready carries, restoreByRack_permitted shared, restoreBranch_wrongState (unrestorable other)]; rfl
  · rw [rack ready carries, restoreByRack_permitted shared, restoreBranch_wet ((restorable b).mpr held) wet]; rfl
  · rw [rack ready carries, restoreByRack_permitted shared, restoreBranch_restores ((restorable b).mpr held) dry]; rfl
  · rw [exec_restoreZone ready, restoreZone, if_pos wet]; rfl
  · have turns := restoredOver_zone z s
    have turn (x : State) (c : BranchId) (branch : x.branch c = s.branch c) (entry : x.entry c = s.entry c) :
        restoreTurn x c = taken x c := by
      dsimp only [taken]
      rw [restoreTurn, branch]
      refine if_congr (restorable c) ?_ rfl
      rw [restore_eq, entry]
      rfl
    have first := (RestoredOver.nil s).next (b := branchAt z 0) (by simp)
    have second := first.next (b := branchAt z 1) (by simpa using branchAt_ne z (by decide))
    refine ⟨_, by rw [exec_restoreZone ready, restoreZone_dry dry]; rfl, ?_, fun c own held => ?_, fun c spared => ?_⟩
    · change restoreTurn (restoreTurn (restoreTurn s (branchAt z 0)) (branchAt z 1)) (branchAt z 2) = _
      rw [turn _ (branchAt z 2) (second.left _ (.inl (by simpa using ⟨branchAt_ne z (by decide), branchAt_ne z (by decide)⟩))).1
          (second.entry _),
        turn _ (branchAt z 1) (first.left _ (.inl (by simpa using branchAt_ne z (by decide)))).1 (first.entry _),
        turn s (branchAt z 0) rfl rfl]
    · obtain ⟨branch, drip, pending, active, queued⟩ :=
        turns.restored c ((mem_zoneBranches z c).mpr own) ((restorable c).mpr held)
      exact ⟨branch, congrArg (·.amount) drip, congrArg (·.level) drip, congrArg (·.lastImbalance) drip, pending, active, queued⟩
    · refine turns.left c ?_
      rw [mem_zoneBranches]
      obtain other | free | closing := spared
      · exact .inl other
      · right; cases state : (s.branch c).state <;> simp_all [BranchState.isIsolation, BranchState.isRestorable]
      · right; rw [closing]; rfl

/-! ### PARK (R58, R168) -/

section Parking

variable {s : State}

theorem parkBranch_plans (s : State) (b c : BranchId) :
    ((parkBranch s b).pendingPlan c =
        if c = b ∧ (s.branch c).state.isAdmitted = true then PlanEntry.default else s.pendingPlan c) ∧
      (parkBranch s b).activePlan c =
        if c = b ∧ (s.branch c).state.isAdmitted = true then PlanEntry.default else s.activePlan c := by
  have pending : (releaseBranch b s).pendingPlan c = if c = b then PlanEntry.default else s.pendingPlan c :=
    get_put s.planPending b c PlanEntry.default
  have active : (releaseBranch b s).activePlan c = if c = b then PlanEntry.default else s.activePlan c :=
    get_put s.planActive b c PlanEntry.default
  unfold parkBranch
  split
  · rename_i held
    rw [pending, active]
    by_cases own : c = b
    · subst own; simp [held]
    · simp [own]
  · rename_i other
    by_cases own : c = b
    · subst own; simp [other]
    · simp [own]

theorem foldl_parkBranch_plans (bs : List BranchId) (c : BranchId) : ∀ s : State,
    ((bs.foldl parkBranch s).pendingPlan c =
        if c ∈ bs ∧ (s.branch c).state.isAdmitted = true then PlanEntry.default else s.pendingPlan c) ∧
      (bs.foldl parkBranch s).activePlan c =
        if c ∈ bs ∧ (s.branch c).state.isAdmitted = true then PlanEntry.default else s.activePlan c := by
  induction bs with
  | nil => simp
  | cons b bs ih =>
    intro s
    obtain ⟨pending, active⟩ := parkBranch_plans s b c
    have vacant : BranchState.vacant.isAdmitted = false := rfl
    rw [List.foldl_cons, (ih _).1, (ih _).2, pending, active, parkBranch_branch]
    by_cases own : c = b
    · subst own
      by_cases held : (s.branch c).state.isAdmitted = true <;> simp [held, vacant]
    · simp [own]

theorem foldl_parkBranch_frame (bs : List BranchId) : ∀ s : State,
    ∃ (ports : Vector LinkPort 4) (branches : Vector Branch 48) (pending active : Vector PlanEntry 48),
      bs.foldl parkBranch s =
        { s with ports := ports, branches := branches, planPending := pending, planActive := active } := by
  induction bs with
  | nil => exact fun s => ⟨_, _, _, _, rfl⟩
  | cons b bs ih =>
    intro s
    have one : ∃ (ports : Vector LinkPort 4) (branches : Vector Branch 48) (pending active : Vector PlanEntry 48),
        parkBranch s b =
          { s with ports := ports, branches := branches, planPending := pending, planActive := active } := by
      unfold parkBranch
      split <;> exact ⟨_, _, _, _, rfl⟩
    obtain ⟨_, _, _, _, first⟩ := one
    obtain ⟨_, _, _, _, rest⟩ := ih (parkBranch s b)
    rw [List.foldl_cons, rest, first]
    exact ⟨_, _, _, _, rfl⟩

/-- PARK's releases are those of the branches that are in service when it begins: none touches another. -/
theorem foldl_parkBranch_eq {g : State → BranchId → State} {bs : List BranchId} (nodup : bs.Nodup)
    (turn : ∀ t, ∀ b ∈ bs, t.branch b = s.branch b → parkBranch t b = g t b) :
    ∀ t : State, (∀ b ∈ bs, t.branch b = s.branch b) → bs.foldl parkBranch t = bs.foldl g t := by
  induction bs with
  | nil => exact fun _ _ => rfl
  | cons b bs ih =>
    intro t same
    obtain ⟨fresh, nodup⟩ := List.nodup_cons.mp nodup
    rw [List.foldl_cons, List.foldl_cons, ← turn t b List.mem_cons_self (same b List.mem_cons_self)]
    refine ih nodup (fun u c listed => turn u c (List.mem_cons_of_mem b listed)) _ fun c listed => ?_
    have other : c ≠ b := fun h => fresh (h ▸ listed)
    rw [parkBranch_branch, if_neg (fun h => other h.1), same c (List.mem_cons_of_mem b listed)]

theorem exec_park (ready : Ready s .rm) :
    exec (.park .rm []) s = .next ((park s).2.answering .rm 0x3A (park s).1) :=
  request_handled ready (by simp) (by simp)

theorem exec_unpark (ready : Ready s .rm) :
    exec (.unpark .rm []) s = .next ((unpark s).2.answering .rm 0x3B (unpark s).1) :=
  request_handled ready (by simp) (by simp)

/-- PARK accepted: the releases, the mode and the park record. -/
def parked (s : State) : State :=
  { setMode .parking (allBranches.foldl parkBranch s) with
    park := some { window := Timer.start s.params.parkWindow, confirmed := 0 } }

theorem park_parks (allowed : s.mode = .run ∨ s.mode = .hold) : park s = (Reply.plain .ok, parked s) := by
  have pass : ¬ (s.mode ≠ .run ∧ s.mode ≠ .hold) := by tauto
  rw [park, if_neg pass]
  rfl

theorem parked_branch (s : State) (b : BranchId) :
    (parked s).branch b =
      if (s.branch b).state.isAdmitted = true then (s.branch b).atRest .vacant 0 none else s.branch b := by
  have fold := foldl_parkBranch_branch allBranches b s
  have all : b ∈ allBranches := List.mem_finRange b
  simp only [all, true_and] at fold
  rw [parked]
  generalize allBranches.foldl parkBranch s = t at fold ⊢
  exact fold

theorem parked_plans (s : State) (b : BranchId) :
    ((parked s).pendingPlan b =
        if (s.branch b).state.isAdmitted = true then PlanEntry.default else s.pendingPlan b) ∧
      (parked s).activePlan b =
        if (s.branch b).state.isAdmitted = true then PlanEntry.default else s.activePlan b := by
  have fold := foldl_parkBranch_plans allBranches b s
  have all : b ∈ allBranches := List.mem_finRange b
  simp only [all, true_and] at fold
  rw [parked]
  generalize allBranches.foldl parkBranch s = t at fold ⊢
  exact fold

/-! ### The park test and the park window (R169) -/

theorem parkTest_parking {k : Park} (z : SegId) (parking : s.mode = .parking) (present : s.park = some k) :
    parkTest z s =
      if unconfirmed s (k.confirm z ((zoneBranches z).all (positionParked s))) = [] then parkEnds s
      else { s with park := some (k.confirm z ((zoneBranches z).all (positionParked s))) } := by
  unfold parkTest
  rw [parking, present]

theorem parkTest_idle (z : SegId) (idle : s.mode ≠ .parking ∨ s.park = none) : parkTest z s = s := by
  unfold parkTest
  split
  · rename_i parking present
    rcases idle with other | absent
    · exact absurd parking other
    · rw [absent] at present; cases present
  · rfl

theorem unconfirmed_nil (s : State) (k : Park) :
    unconfirmed s k = [] ↔ ∀ y, (s.segment y).link = .online → k.confirmed.getLsbD y.val = true := by
  simp only [unconfirmed, onlineSegments, allSegments, List.filter_eq_nil_iff, List.mem_filter, List.mem_finRange, true_and,
    decide_eq_true_eq, Bool.not_eq_true', Bool.not_eq_false]

theorem parkWindowEnds_due {k : Park} (parking : s.mode = .parking) (present : s.park = some k) (ended : k.window.steps = 0) :
    parkWindowEnds s = report .parkIncomplete .nothing (some (parkDetail s k)) (parkEnds s) := by
  simp [parkWindowEnds, parking, present, ended]

theorem exec_parkWindowExpiry {after : Nat} (runs : s.running = true) :
    exec (.parkWindowExpiry after) s = .next (parkWindowEnds (s.elapse after)) := event_taken runs

theorem onlineSegments_congr {t : State} (same : ∀ z, t.segment z = s.segment z) : onlineSegments t = onlineSegments s := by
  simp only [onlineSegments, same]

end Parking

/-- Settles O46: PARK with what it releases and leaves, UNPARK, the park test and the window's end. -/
theorem parkingRestsTheRack : Obligations.ParkingRestsTheRack := by
  intro s atRest released
  refine ⟨fun ready allowed => ?_, fun ready run hold => ?_, fun ready allowed => ?_, fun ready parking parked => ?_,
    fun z k parking present => ?_, fun z idle => parkTest_idle z idle, fun after k runs parking present ended => ?_⟩
  · have turns : allBranches.foldl parkBranch s = allBranches.foldl released s := by
      refine foldl_parkBranch_eq (s := s) (List.nodup_finRange 48) (fun t b _ same => ?_) s fun _ _ => rfl
      dsimp only [released]
      rw [parkBranch, releaseBranch, same]
      exact if_congr (BranchState.isAdmitted_iff _) rfl rfl
    obtain ⟨_, _, _, _, frame⟩ := foldl_parkBranch_frame allBranches s
    refine ⟨parked s, by rw [exec_park ready, park_parks allowed]; rfl, rfl, ?_, rfl, fun b held => ?_, fun b other => ?_, ?_⟩
    · rw [parked, turns]
      rfl
    · rw [parked_branch, (parked_plans s b).1, (parked_plans s b).2, if_pos held, if_pos held, if_pos held]
      exact ⟨rfl, rfl, rfl⟩
    · rw [parked_branch, (parked_plans s b).1, (parked_plans s b).2, if_neg (by simp [other]), if_neg (by simp [other]),
        if_neg (by simp [other])]
      exact ⟨rfl, rfl, rfl⟩
    · rw [parked, frame]
      exact ⟨rfl, rfl, rfl, rfl, rfl, rfl⟩
  · rw [exec_park ready, park, if_pos ⟨run, hold⟩]; rfl
  · rw [exec_unpark ready, unpark, if_pos allowed]; rfl
  · rw [exec_unpark ready, unpark, if_neg (by tauto)]; rfl
  · intro passes bits complete
    have confirmed : k.confirm z ((zoneBranches z).all (positionParked s)) = { k with confirmed := bits } := rfl
    have done : unconfirmed s { k with confirmed := bits } = [] ↔ complete := unconfirmed_nil s _
    rw [parkTest_parking z parking present, confirmed]
    exact ⟨fun all => if_pos (done.mpr all), fun some => if_neg (done.not.mpr some)⟩
  · intro online missing
    have same : onlineSegments (s.elapse after) = online := onlineSegments_congr fun z => s.elapse_segment after z
    have detail : parkDetail (s.elapse after) k = if online = [] then 16 else missing.length := by
      rw [parkDetail, unconfirmed, same]
    rw [exec_parkWindowExpiry runs, parkWindowEnds_due (by rwa [s.elapse_mode]) present ended, detail]
    rfl

end Sys2Proof.Machine

/-! ## The Field Scanner: exchanges, misses and reports -/

namespace Sys2Proof.Machine

open Sys2Proof

/-! ### Rounds and exchanges (R19, R20, R23) -/

theorem commandFor_segmentModule (s : State) (z : SegId) :
    commandFor s (segmentModule z) =
      .segment (outputs s (branchAt z 0)) (outputs s (branchAt z 1)) (outputs s (branchAt z 2)) := dif_pos z.isLt

theorem commandFor_headModule (s : State) : commandFor s headModule = .head (s.feed .a).inlet (s.feed .b).inlet := rfl

theorem startExchange_eq (m : ModuleId) (s : State) :
    startExchange m s = { s with scanner := { s.scanner with
      number := s.scanner.number + 1, exchange := some { module := m, command := commandFor s m, began := s.clock },
      next := m.val + 1 } } := rfl

theorem startRound_eq (s : State) :
    startRound s = { s with scanner := { s.scanner with
      roundStart := s.clock, roundInterval := s.params.scanInterval, number := s.scanner.number + 1,
      exchange := some { module := 0, command := commandFor s 0, began := s.clock }, next := 0 + 1 } } := rfl

theorem exec_roundStart (after : Nat) (s : State) :
    exec (.roundStart after) s = event after (fun t => if roundDue t then startRound t else t) s := rfl

theorem exec_exchangeStart {s : State} (after : Nat) (runs : s.running = true) :
    exec (.exchangeStart after) s = .next (nextExchange (s.elapse after)) := event_taken runs

theorem exec_exchangeMiss {s : State} (after : Nat) (runs : s.running = true) :
    exec (.exchangeMiss after) s = .next (missExchange (s.elapse after)) := event_taken runs

theorem nextExchange_serves {s : State} {m : ModuleId} (idle : s.scanner.exchange = none) (next : s.scanner.next = m.val) :
    nextExchange s = startExchange m s := by
  have within : s.scanner.next < 17 := next ▸ m.isLt
  have served : (⟨s.scanner.next, within⟩ : ModuleId) = m := Fin.ext next
  rw [nextExchange, dif_pos within, if_pos idle, served]

/-! ### Misses (R28, R30, R129, R150) -/

section Misses

variable {s : State} {z : SegId}

/-- A miss moves the link to MISSING, and at the third to STALE, where it stays (R28). -/
theorem afterMiss_eq (link : LinkState) (misses : Nat) :
    (afterMiss link misses).1 = (if link = .stale ∨ 2 ≤ misses then .stale else .missing) ∧
      (afterMiss link misses).2 = if link = .stale ∨ 2 ≤ misses then 3 else misses + 1 := by
  unfold afterMiss
  split <;> exact ⟨rfl, rfl⟩

/-- The segment record after a miss. -/
def SegmentRecord.missed (x : SegmentRecord) : SegmentRecord :=
  { x with link := (afterMiss x.link x.misses).1, misses := (afterMiss x.link x.misses).2 }

/-- The head record after a miss. -/
def HeadRecord.missed (x : HeadRecord) : HeadRecord :=
  { x with link := (afterMiss x.link x.misses).1, misses := (afterMiss x.link x.misses).2 }

theorem missSegment_lost (fresh : (s.segment z).link ≠ .stale) (third : 2 ≤ (s.segment z).misses) :
    missSegment z s = report .segmentLost (.zone z) none
      ((s.setSegment z (s.segment z).missed).setZone z (s.zone z).pause) := by
  have stale : (afterMiss (s.segment z).link (s.segment z).misses).1 = .stale := by
    rw [(afterMiss_eq _ _).1, if_pos (.inr third)]
  rw [missSegment]
  rw [if_pos ⟨stale, fresh⟩]
  rfl

theorem missSegment_kept (kept : (s.segment z).link = .stale ∨ (s.segment z).misses < 2) :
    missSegment z s = s.setSegment z (s.segment z).missed := by
  have stays : ¬ ((afterMiss (s.segment z).link (s.segment z).misses).1 = .stale ∧ (s.segment z).link ≠ .stale) := by
    rintro ⟨stale, fresh⟩
    rw [(afterMiss_eq _ _).1] at stale
    rcases kept with was | few
    · exact fresh was
    · rw [if_neg (by rintro (was | third); exacts [fresh was, absurd few (Nat.not_lt.mpr third)])] at stale
      cases stale
  rw [missSegment]
  rw [if_neg stays]
  rfl

theorem missHead_lost (fresh : s.head.link ≠ .stale) (third : 2 ≤ s.head.misses) :
    missHead s = headLost { s with head := s.head.missed } := by
  have stale : (afterMiss s.head.link s.head.misses).1 = .stale := by
    rw [(afterMiss_eq _ _).1, if_pos (.inr third)]
  rw [missHead]
  rw [if_pos ⟨stale, fresh⟩]
  rfl

theorem missHead_kept (kept : s.head.link = .stale ∨ s.head.misses < 2) : missHead s = { s with head := s.head.missed } := by
  have stays : ¬ ((afterMiss s.head.link s.head.misses).1 = .stale ∧ s.head.link ≠ .stale) := by
    rintro ⟨stale, fresh⟩
    rw [(afterMiss_eq _ _).1] at stale
    rcases kept with was | few
    · exact fresh was
    · rw [if_neg (by rintro (was | third); exacts [fresh was, absurd few (Nat.not_lt.mpr third)])] at stale
      cases stale
  rw [missHead]
  rw [if_neg stays]
  rfl

theorem missExchange_segment {x : Exchange} (inProgress : s.scanner.exchange = some x) (addressed : x.module = segmentModule z) :
    missExchange s = missSegment z (endExchange s) := by
  rw [missExchange, inProgress]
  dsimp only
  rw [addressed]
  exact dif_pos z.isLt

theorem missExchange_head {x : Exchange} (inProgress : s.scanner.exchange = some x) (addressed : x.module = headModule) :
    missExchange s = missHead (endExchange s) := by
  rw [missExchange, inProgress]
  dsimp only
  rw [addressed]
  rfl

/-- What a miss of a segment module leaves alone, and the link state it sets. -/
theorem missSegment_frame (z : SegId) (s : State) :
    (missSegment z s).scanner = s.scanner ∧ (missSegment z s).segment z = (s.segment z).missed ∧
      (missSegment z s).measured = s.measured ∧ (missSegment z s).head = s.head ∧
      (∀ y, y ≠ z → (missSegment z s).zone y = s.zone y) ∧ (∀ y, y ≠ z → (missSegment z s).segment y = s.segment y) ∧
      (missSegment z s).branches = s.branches := by
  by_cases lost : (s.segment z).link ≠ .stale ∧ 2 ≤ (s.segment z).misses
  · rw [missSegment_lost lost.1 lost.2, report_scanner, report_segment, report_measured, report_head, report_branches]
    refine ⟨rfl, ?_, rfl, rfl, fun y other => ?_, fun y other => ?_, rfl⟩
    · rw [State.setZone_segment, State.setSegment_segment, if_pos rfl]
    · rw [report_zone, State.setZone_zone, if_neg other]
      rfl
    · rw [report_segment, State.setZone_segment, State.setSegment_segment, if_neg other]
  · have kept : (s.segment z).link = .stale ∨ (s.segment z).misses < 2 := by
      by_contra h
      push Not at h
      exact lost h
    rw [missSegment_kept kept]
    refine ⟨rfl, ?_, rfl, rfl, fun _ _ => rfl, fun y other => ?_, rfl⟩
    · rw [State.setSegment_segment, if_pos rfl]
    · rw [State.setSegment_segment, if_neg other]

/-- After a report its kind and subject stand in the list, or the list is full. -/
theorem report_listed (kind : Kind) (subject : Subject) (detail : Option Int) (s : State) :
    (∃ r ∈ (report kind subject detail s).incidents.records, r.kind = kind ∧ r.subject = subject) ∨
      32 ≤ (report kind subject detail s).incidents.records.length := by
  by_cases known : ∃ r ∈ s.incidents.records, r.kind = kind ∧ r.subject = subject
  · obtain ⟨r, here, kindIs, subjectIs⟩ := known
    rw [report_merged detail ⟨r, here, kindIs, subjectIs⟩]
    refine .inl ⟨r.merge s.uptime (detail.map detailRange), List.mem_map.mpr ⟨r, here, if_pos ⟨kindIs, subjectIs⟩⟩, kindIs,
      subjectIs⟩
  · by_cases room : s.incidents.records.length < 32
    · rw [report_appended detail known room rfl]
      exact .inl ⟨_, List.mem_append_right _ List.mem_cons_self, rfl, rfl⟩
    · rw [report_overflowed detail known (Nat.not_lt.mp room)]
      exact .inr (Nat.not_lt.mp room)

theorem report_incidents_congr {t : State} (incidents : t.incidents = s.incidents) (clock : t.clock = s.clock) (kind : Kind)
    (subject : Subject) (detail : Option Int) :
    (report kind subject detail t).incidents = (report kind subject detail s).incidents := by
  rw [report_incidents, report_incidents, incidents, State.uptime, clock]
  rfl

theorem headLost_eq (s : State) :
    (headLost s).incidents = (report .headLost .nothing none s).incidents ∧
      (∀ f, (headLost s).feed f = { s.feed f with lowTimer := none }) ∧ (headLost s).branches = s.branches ∧
      (headLost s).zones = s.zones ∧ (headLost s).segments = s.segments ∧ (headLost s).head = s.head := by
  rw [headLost, report_branches, report_zones, report_segments, report_head]
  refine ⟨?_, fun f => ?_, rfl, rfl, rfl, rfl⟩
  · apply report_incidents_congr <;> rfl
  · rw [report_feed]
    cases f <;> simp

end Misses

/-- Settles O34: the two beginnings of an exchange, and its miss by the module. -/
theorem exchangesBeginAndMiss : Obligations.ExchangesBeginAndMiss := by
  refine ⟨fun x z => ⟨commandFor_segmentModule x z, commandFor_headModule x, rfl, rfl, fun _ => rfl⟩, fun s after runs => ?_⟩
  intro u begun
  have scanner : u.scanner = s.scanner := s.elapse_scanner after
  have clock : u.clock = s.clock + after := s.elapse_clock after
  have params : u.params = s.params := s.elapse_params after
  have segment (z : SegId) : (endExchange u).segment z = s.segment z := s.elapse_segment after z
  have segments : u.segments = s.segments := s.elapse_segments after
  have head : u.head = s.head := s.elapse_head after
  have measured : u.measured = s.measured := s.elapse_measured after
  have missed : exec (.exchangeMiss after) s = .next (missExchange u) := exec_exchangeMiss after runs
  have served : exec (.exchangeStart after) s = .next (nextExchange u) := exec_exchangeStart after runs
  have started (reached : roundDue u = true) : exec (.roundStart after) s = .next (startRound u) := event_due runs reached
  clear_value u
  refine ⟨fun idle ended due => ?_, fun m idle next => ?_, fun z x inProgress addressed => ?_,
    fun x inProgress addressed => ?_⟩
  · have reached : roundDue u = true := by
      rw [roundDue, scanner, clock, decide_eq_true_eq]
      exact ⟨idle, ended, due⟩
    rw [started reached, startRound_eq]
    dsimp only [begun]
    rw [scanner, clock, params]
    rfl
  · rw [served, nextExchange_serves (m := m) (by rw [scanner, idle]) (by rw [scanner, next]), startExchange_eq]
    dsimp only [begun]
    rw [scanner, clock]
  · rw [missed, missExchange_segment (x := x) (by rw [scanner, inProgress]) addressed]
    obtain ⟨scanned, own, measuredKept, headKept, zones, segmentsKept, branches⟩ := missSegment_frame z (endExchange u)
    rw [segment] at own
    refine ⟨_, rfl, scanned.trans (congrArg (fun r : Scanner => { r with exchange := none }) scanner), ?_, ?_, ?_,
      measuredKept.trans measured, headKept.trans head, fun fresh third => ?_, fun fresh third => ?_,
      fun kept => ?_, zones, fun y other => (segmentsKept y other).trans (segment y), branches⟩
    · rw [own]; exact (afterMiss_eq _ _).1
    · rw [own]; exact (afterMiss_eq _ _).2
    · rw [own]; rfl
    · rw [missSegment_lost (by rwa [segment]) (by rwa [segment])]
      exact report_listed _ _ _ _
    · rw [missSegment_lost (by rwa [segment]) (by rwa [segment]), report_zone, State.setZone_zone, if_pos rfl]
      refine ⟨?_, rfl⟩
      apply report_incidents_congr <;> rfl
    · rw [missSegment_kept (by rwa [segment])]
      exact ⟨rfl, rfl⟩
  · rw [missed, missExchange_head (x := x) (by rw [scanner, inProgress]) addressed]
    have record : (endExchange u).head.missed = { s.head with
        link := if s.head.link = .stale ∨ 2 ≤ s.head.misses then .stale else .missing
        misses := if s.head.link = .stale ∨ 2 ≤ s.head.misses then 3 else s.head.misses + 1 } := by
      rw [show (endExchange u).head = s.head from head, HeadRecord.missed, (afterMiss_eq _ _).1, (afterMiss_eq _ _).2]
    by_cases lost : s.head.link ≠ .stale ∧ 2 ≤ s.head.misses
    · obtain ⟨incidents, feeds, branches, zones, segmentsKept, headIs⟩ :=
        headLost_eq { endExchange u with head := (endExchange u).head.missed }
      rw [missHead_lost (s := endExchange u) (head ▸ lost.1) (head ▸ lost.2)]
      refine ⟨_, rfl, segmentsKept.trans segments, headIs.trans record, fun _ _ => ⟨incidents.trans ?_, feeds⟩, fun kept => ?_,
        branches, zones⟩
      · apply report_incidents_congr <;> rfl
      · rcases kept with was | few
        · exact absurd was lost.1
        · exact absurd lost.2 (Nat.not_le.mpr few)
    · have kept : s.head.link = .stale ∨ s.head.misses < 2 := by
        by_contra h
        push Not at h
        exact lost h
      rw [missHead_kept (s := endExchange u) (head ▸ kept)]
      exact ⟨_, rfl, segments, record, fun fresh third => absurd ⟨fresh, third⟩ lost, fun _ => ⟨rfl, rfl⟩, rfl, rfl⟩

end Sys2Proof.Machine

/-! ## The reports of the modules -/

namespace Sys2Proof.Machine

open Sys2Proof

/-! ### What the handling of a segment report touches -/

/-- Between two states only the branches, the accumulators and the zone record of zone `z` differ, with the mode and the park
record, the marks handed on, and the reports. -/
def WithinZone (z : SegId) (s t : State) : Prop :=
  ∃ (branches : Vector Branch 48) (drips : Vector Accumulator 48) (zones : Vector Zone 16) (mode : Mode) (park : Option Park)
    (incidents : IncidentList) (ports : Vector LinkPort 4) (store : Store),
    t = { s with
      branches := branches, drips := drips, zones := zones, mode := mode, park := park, incidents := incidents,
      ports := ports, store := store } ∧
    (∀ b, zoneOf b ≠ z → branches.get b = s.branch b ∧ drips.get b = s.drip b) ∧ ∀ y, y ≠ z → zones.get y = s.zone y

section Within

variable {z : SegId} {s t u : State} {b : BranchId}

theorem WithinZone.refl (z : SegId) (s : State) : WithinZone z s s :=
  ⟨_, _, _, _, _, _, _, _, rfl, fun _ _ => ⟨rfl, rfl⟩, fun _ _ => rfl⟩

theorem WithinZone.trans (first : WithinZone z s t) (second : WithinZone z t u) : WithinZone z s u := by
  obtain ⟨_, _, _, _, _, _, _, _, rfl, outside, zones⟩ := first
  obtain ⟨_, _, _, _, _, _, _, _, rfl, outside', zones'⟩ := second
  exact ⟨_, _, _, _, _, _, _, _, rfl,
    fun b far => ⟨(outside' b far).1.trans (outside b far).1, (outside' b far).2.trans (outside b far).2⟩,
    fun y other => (zones' y other).trans (zones y other)⟩

theorem WithinZone.foldl {f : State → BranchId → State} {bs : List BranchId}
    (each : ∀ t, ∀ b ∈ bs, WithinZone z t (f t b)) : ∀ s : State, WithinZone z s (bs.foldl f s) := by
  induction bs with
  | nil => exact fun s => .refl z s
  | cons b bs ih =>
    exact fun s => (each s b List.mem_cons_self).trans (ih (fun t c listed => each t c (List.mem_cons_of_mem b listed)) _)

theorem WithinZone.report (kind : Kind) (subject : Subject) (detail : Option Int) (h : WithinZone z s t) :
    WithinZone z s (report kind subject detail t) := by
  refine h.trans ?_
  simp only [Machine.report]
  split <;> exact ⟨_, _, _, _, _, _, _, _, rfl, fun _ _ => ⟨rfl, rfl⟩, fun _ _ => rfl⟩

theorem WithinZone.notifyAll (c : Notice) (h : WithinZone z s t) : WithinZone z s (notifyAll c t) :=
  h.trans ⟨_, _, _, _, _, _, _, _, rfl, fun _ _ => ⟨rfl, rfl⟩, fun _ _ => rfl⟩

theorem WithinZone.setBranch (own : zoneOf b = z) (x : Branch) (s : State) : WithinZone z s (s.setBranch b x) := by
  refine ⟨_, _, _, _, _, _, _, _, rfl, fun c far => ⟨?_, rfl⟩, fun _ _ => rfl⟩
  have other : c ≠ b := fun same => far (same ▸ own)
  rw [get_put, if_neg other]
  rfl

theorem WithinZone.setDrip (own : zoneOf b = z) (x : Accumulator) (s : State) : WithinZone z s (s.setDrip b x) := by
  refine ⟨_, _, _, _, _, _, _, _, rfl, fun c far => ⟨rfl, ?_⟩, fun _ _ => rfl⟩
  have other : c ≠ b := fun same => far (same ▸ own)
  rw [get_put, if_neg other]
  rfl

theorem WithinZone.setZone (z : SegId) (x : Zone) (s : State) : WithinZone z s (s.setZone z x) := by
  refine ⟨_, _, _, _, _, _, _, _, rfl, fun _ _ => ⟨rfl, rfl⟩, fun y other => ?_⟩
  rw [get_put, if_neg other]
  rfl

theorem enter_withinZone (own : zoneOf b = z) (x : Branch) (s : State) : WithinZone z s (enter b x s) :=
  (WithinZone.setBranch own x s).notifyAll _

theorem judgeBranch_withinZone (own : zoneOf b = z) (s : State) : WithinZone z s (judgeBranch s b) := by
  unfold judgeBranch
  split
  · unfold primingJudgement
    dsimp only
    split
    · split
      · exact enter_withinZone own _ s
      · exact .setBranch own _ s
    · exact .setBranch own _ s
  · unfold isolationProgress
    dsimp only
    split
    · split
      · exact .setBranch own _ s
      · exact .refl z s
    · split
      · exact (enter_withinZone own _ s).report _ _ _
      · exact .refl z s
    · exact .refl z s
  · exact .refl z s

theorem dripUpdate_withinZone (own : zoneOf b = z) (s : State) : WithinZone z s (dripUpdate s b) := by
  unfold dripUpdate
  split
  · unfold enterJudged
    dsimp only
    split
    · exact (WithinZone.setDrip own _ s).report _ _ _
    · exact .setDrip own _ s
  · exact .refl z s

theorem zoneIntake_withinZone (z : SegId) (level : ZoneLevel) (s : State) : WithinZone z s (zoneIntake z level s) := by
  unfold zoneIntake
  dsimp only
  split
  · split
    · exact (WithinZone.setZone z _ s).report _ _ _
    · exact .setZone z _ s
  · split
    · exact (WithinZone.setZone z _ s).report _ _ _
    · split <;> exact .setZone z _ s
  · exact .setZone z _ s

theorem isolate_withinZone (own : zoneOf b = z) (why : IsolationReason) (s : State) : WithinZone z s (isolate why b s) := by
  unfold isolate
  split
  · refine WithinZone.notifyAll _ ?_
    unfold takeOrder
    dsimp only
    have closing := WithinZone.setBranch own (Branch.toIsolating why s.params.isolateWindow) s
    split
    · exact closing
    · exact closing.trans ⟨_, _, _, _, _, _, _, _, rfl, fun _ _ => ⟨rfl, rfl⟩, fun _ _ => rfl⟩
  · exact .refl z s

theorem isolateAll_withinZone {bs : List BranchId} (own : ∀ b ∈ bs, zoneOf b = z) (why : IsolationReason) (s : State) :
    WithinZone z s (isolateAll why bs s) :=
  WithinZone.foldl (fun t b listed => isolate_withinZone (own b listed) why t) s

theorem zoneOf_of_mem (listed : b ∈ zoneBranches z) : zoneOf b = z := (mem_zoneBranches z b).mp listed

theorem decision_withinZone (z : SegId) (s : State) : WithinZone z s (decision z s) := by
  have suspects : ∀ b ∈ suspectsOf s z, zoneOf b = z := fun b listed =>
    zoneOf_of_mem (List.mem_of_mem_filter (List.mem_of_mem_filter listed))
  have hard : ∀ b ∈ hardOf s z, zoneOf b = z := fun b listed =>
    zoneOf_of_mem (List.mem_of_mem_filter (List.mem_of_mem_filter listed))
  unfold decision
  split
  · exact isolateAll_withinZone hard _ s
  · exact isolateAll_withinZone suspects _ s
  · split
    · unfold confirmEvaluate
      split
      · exact .setZone z _ s
      · split
        · exact .setZone z _ s
        · exact .refl z s
    · exact (WithinZone.setZone z _ s).trans (isolateAll_withinZone suspects _ _)

theorem dripStep_withinZone (z : SegId) (level : ZoneLevel) (s : State) : WithinZone z s (dripStep z level s) :=
  ((WithinZone.foldl (fun t _ listed => dripUpdate_withinZone (zoneOf_of_mem listed) t) s).trans
    (zoneIntake_withinZone z level _)).trans (decision_withinZone z _)

theorem parkTest_withinZone (z : SegId) (s : State) : WithinZone z s (parkTest z s) := by
  unfold parkTest
  split
  · dsimp only
    split <;> exact ⟨_, _, _, _, _, _, _, _, rfl, fun _ _ => ⟨rfl, rfl⟩, fun _ _ => rfl⟩
  · exact .refl z s

end Within

/-! ### A segment report (R21, R25, R26) -/

theorem saturate_zero (hi : Nat) (v : Int) : saturate 0 hi v = (max 0 (min v hi)).toNat := by
  have := saturate_eq_max_min (Nat.zero_le hi) v
  omega

/-- A report is good for the exchange in progress: it comes from the module addressed, with its number, in time (R21). -/
theorem goodFor_iff (m : ModuleId) (number : Byte) (e : Exchange) (s : State) :
    goodFor m number e s = true ↔ e.module = m ∧ number = s.scanner.number ∧ s.clock < e.began + 4 := by
  simp [goodFor, Exchange.closed, and_assoc]

theorem exec_segmentReport {s : State} (after : Nat) (z : SegId) (r : SegmentReport) (runs : s.running = true) :
    exec (.segmentReport after z r) s = .next (takeSegment z r (s.elapse after)) := event_taken runs

theorem exec_headReport {s : State} (after : Nat) (r : HeadReport) (runs : s.running = true) :
    exec (.headReport after r) s = .next (takeHead r (s.elapse after)) := event_taken runs

theorem branchAt_zoneOf (z : SegId) (i : Fin 3) : zoneOf (branchAt z i) = z := by
  have := i.isLt
  exact Fin.ext (by simp only [zoneOf, branchAt]; omega)

/-- The state with a segment report entered (R25, R26). -/
theorem enterSegment_frame (z : SegId) (r : SegmentReport) (s : State) :
    (enterSegment z r s).measure (branchAt z 0) = entered r.first ∧
      (enterSegment z r s).measure (branchAt z 1) = entered r.second ∧
      (enterSegment z r s).measure (branchAt z 2) = entered r.third ∧
      (enterSegment z r s).segment z = { link := .online, misses := 0, lastLevel := r.level } ∧
      (∀ b, zoneOf b ≠ z → (enterSegment z r s).measure b = s.measure b) ∧
      (∀ y, y ≠ z → (enterSegment z r s).segment y = s.segment y ∧ (enterSegment z r s).zone y = s.zone y) := by
  have apart01 := branchAt_ne z (i := 0) (j := 1) (by decide)
  have apart02 := branchAt_ne z (i := 0) (j := 2) (by decide)
  have apart12 := branchAt_ne z (i := 1) (j := 2) (by decide)
  simp only [enterSegment, State.setZone_measure, State.setSegment_measure, State.setMeasure_measure, State.setZone_segment,
    State.setSegment_segment, State.setZone_zone, State.setSegment_zone, State.setMeasure_zone, State.setMeasure_segment]
  refine ⟨by simp [apart01, apart02], by simp [apart12], by simp, by simp, fun b far => ?_, fun y other => by simp [other]⟩
  have not (i : Fin 3) : b ≠ branchAt z i := fun same => far (same ▸ branchAt_zoneOf z i)
  simp [not]

theorem saturate_zero_map (hi : Nat) (v : Option Int) :
    v.map (saturate 0 hi) = v.map fun v : Int => (max 0 (min v hi)).toNat :=
  congrArg (fun f => v.map f) (funext (saturate_zero hi))

theorem entered_eq (x : PositionReport) :
    entered x =
      { supplyFlow := (max 0 (min x.supplyFlow (3000 : Nat))).toNat
        returnFlow := (max 0 (min x.returnFlow (3000 : Nat))).toNat
        temperature := x.temperature.map fun v : Int => (max 0 (min v (1000 : Nat))).toNat
        supplyFeedback := (max 0 (min x.supplyFeedback (1000 : Nat))).toNat
        returnFeedback := x.returnFeedback } := by
  simp only [entered, saturate_zero, saturate_zero_map]

section Taking

variable {s : State} {x : Exchange}

theorem takeSegment_good {z : SegId} {r : SegmentReport} (inProgress : s.scanner.exchange = some x)
    (good : goodFor (segmentModule z) r.number x s = true) : takeSegment z r s = handleSegment z r (endExchange s) := by
  simp only [takeSegment, inProgress, good, if_true]

theorem takeSegment_bad {z : SegId} {r : SegmentReport} (inProgress : s.scanner.exchange = some x)
    (bad : ¬ goodFor (segmentModule z) r.number x s = true) : takeSegment z r s = missExchange s := by
  simp only [takeSegment, inProgress, bad]
  rfl

theorem takeSegment_idle (z : SegId) (r : SegmentReport) (idle : s.scanner.exchange = none) : takeSegment z r s = s := by
  simp only [takeSegment, idle]

theorem not_goodFor {m : ModuleId} {number : Byte}
    (bad : x.module ≠ m ∨ number ≠ s.scanner.number ∨ x.began + 4 ≤ s.clock) : ¬ goodFor m number x s = true := by
  rw [goodFor_iff]
  rintro ⟨addressed, same, inTime⟩
  rcases bad with other | stale | late
  · exact other addressed
  · exact stale same
  · exact absurd inTime (Nat.not_lt.mpr late)

end Taking

/-- Between two states only what a segment report enters differs: measurements, link states and zone records (R25, R150). -/
def SameButEntered (s t : State) : Prop :=
  ∃ (measured : Vector Measurement 48) (segments : Vector SegmentRecord 16) (zones : Vector Zone 16),
    t = { s with measured := measured, segments := segments, zones := zones }

theorem SameButEntered.setMeasure {s t : State} (h : SameButEntered s t) (b : BranchId) (x : Measurement) :
    SameButEntered s (t.setMeasure b x) := by
  obtain ⟨_, segments, zones, rfl⟩ := h
  exact ⟨_, segments, zones, rfl⟩

theorem SameButEntered.setSegment {s t : State} (h : SameButEntered s t) (z : SegId) (x : SegmentRecord) :
    SameButEntered s (t.setSegment z x) := by
  obtain ⟨measured, _, zones, rfl⟩ := h
  exact ⟨measured, _, zones, rfl⟩

theorem SameButEntered.setZone {s t : State} (h : SameButEntered s t) (z : SegId) (x : Zone) :
    SameButEntered s (t.setZone z x) := by
  obtain ⟨measured, segments, _, rfl⟩ := h
  exact ⟨measured, segments, _, rfl⟩

theorem enterSegment_sameButEntered (z : SegId) (r : SegmentReport) (s : State) : SameButEntered s (enterSegment z r s) := by
  have same : SameButEntered s s := ⟨_, _, _, rfl⟩
  exact ((((same.setMeasure _ _).setMeasure _ _).setMeasure _ _).setSegment z _).setZone z _

theorem handleSegment_withinZone (z : SegId) (r : SegmentReport) (s : State) :
    WithinZone z (enterSegment z r s) (handleSegment z r s) :=
  ((WithinZone.foldl (fun t _ listed => judgeBranch_withinZone (zoneOf_of_mem listed) t) _).trans
    (dripStep_withinZone z r.level _)).trans (parkTest_withinZone z _)

/-- What the handling of a good segment report leaves as it was, and what it leaves entered. -/
theorem handleSegment_frame (z : SegId) (r : SegmentReport) (s : State) :
    let t := handleSegment z r s
    t.scanner = s.scanner ∧ t.measure (branchAt z 0) = entered r.first ∧ t.measure (branchAt z 1) = entered r.second ∧
      t.measure (branchAt z 2) = entered r.third ∧
      t.segment z = { link := .online, misses := 0, lastLevel := r.level } ∧
      (∀ b, zoneOf b ≠ z → t.measure b = s.measure b ∧ t.branch b = s.branch b ∧ t.drip b = s.drip b) ∧
      (∀ y, y ≠ z → t.segment y = s.segment y ∧ t.zone y = s.zone y) ∧
      t.head = s.head ∧ t.map = s.map ∧ t.planPending = s.planPending ∧ t.planActive = s.planActive ∧
      t.leases = s.leases ∧ t.feeds = s.feeds ∧ t.activeFeed = s.activeFeed ∧ t.params = s.params := by
  obtain ⟨first, second, third, own, otherMeasures, others⟩ := enterSegment_frame z r s
  obtain ⟨_, _, _, _, _, _, _, _, frame, outside, zones⟩ := handleSegment_withinZone z r s
  obtain ⟨_, _, _, entry⟩ := enterSegment_sameButEntered z r s
  rw [entry] at first second third own otherMeasures others frame outside zones
  rw [frame]
  exact ⟨rfl, first, second, third, own, fun b far => ⟨otherMeasures b far, (outside b far).1, (outside b far).2⟩,
    fun y other => ⟨(others y other).1, (zones y other).trans (others y other).2⟩, rfl, rfl, rfl, rfl, rfl, rfl, rfl, rfl⟩

/-- Settles O35: a good report's step by step handling and its frame; any other is a miss or discarded. -/
theorem aSegmentReportIsEnteredWhole : Obligations.ASegmentReportIsEnteredWhole := by
  intro s after z r runs u range enteredAs filled
  have scanner : u.scanner = s.scanner := s.elapse_scanner after
  have clock : u.clock = s.clock + after := s.elapse_clock after
  have measure (b : BranchId) : u.measure b = s.measure b := s.elapse_measure after b
  have segment (y : SegId) : u.segment y = s.segment y := s.elapse_segment after y
  have drip (b : BranchId) : u.drip b = s.drip b := s.elapse_drip after b
  have head : u.head = s.head := s.elapse_head after
  have map : u.map = s.map := s.elapse_map after
  have pending : u.planPending = s.planPending := s.elapse_planPending after
  have active : u.planActive = s.planActive := s.elapse_planActive after
  have activeFeed : u.activeFeed = s.activeFeed := s.elapse_activeFeed after
  have params : u.params = s.params := s.elapse_params after
  have taken : exec (.segmentReport after z r) s = .next (takeSegment z r u) := exec_segmentReport after z r runs
  have missed : exec (.exchangeMiss after) s = .next (missExchange u) := exec_exchangeMiss after runs
  clear_value u
  have values (x : PositionReport) : entered x = enteredAs x := entered_eq x
  have ended : (endExchange u).scanner = { s.scanner with exchange := none } :=
    congrArg (fun x : Scanner => { x with exchange := none }) scanner
  rw [taken]
  refine ⟨fun x inProgress addressed number inTime => ?_, fun x inProgress bad => ?_, fun idle => ?_⟩
  · have good : goodFor (segmentModule z) r.number x u = true :=
      (goodFor_iff _ _ _ _).mpr ⟨addressed, scanner ▸ number, clock ▸ inTime⟩
    rw [takeSegment_good (scanner ▸ inProgress) good]
    obtain ⟨scanned, first, second, third, own, otherBranches, others, headKept, mapKept, pendingKept, activeKept, leases, feeds,
      feedKept, paramsKept⟩ := handleSegment_frame z r (endExchange u)
    refine ⟨_, rfl, ?_, scanned.trans ended, first.trans (values _), second.trans (values _), third.trans (values _), own,
      fun b far => ?_, fun y other => ?_, headKept.trans head, mapKept.trans map, pendingKept.trans pending,
      activeKept.trans active, leases, feeds, feedKept.trans activeFeed, paramsKept.trans params⟩
    · have entry : enterSegment z r (endExchange u) = filled := by
        rw [enterSegment, values, values, values, endExchange, scanner]
        rfl
      rw [handleSegment, entry]
      rfl
    · obtain ⟨measured, branch, amount⟩ := otherBranches b far
      exact ⟨measured.trans (measure b), branch, amount.trans (drip b)⟩
    · obtain ⟨link, zone⟩ := others y other
      exact ⟨link.trans (segment y), zone⟩
  · rw [missed, takeSegment_bad (scanner ▸ inProgress) (not_goodFor (scanner ▸ clock ▸ bad))]
  · rw [takeSegment_idle z r (scanner ▸ idle)]

end Sys2Proof.Machine

/-! ## The head report and its judgement -/

namespace Sys2Proof.Machine

open Sys2Proof

/-! ### The feeds judged (R123, steps 1 to 3) -/

theorem FeedRecord.judge_eq (p : Params) (pressure : Nat) (f : FeedRecord) :
    f.judge p pressure = { f with
      proof := if p.proofPressure ≤ pressure then min (f.proof + 1) 3 else 0
      failed := f.failed && !(decide (p.proofPressure ≤ pressure) && decide (f.proof = 2))
      lowTimer := if f.failed = true ∨ p.failPressure ≤ pressure then none else some (f.lowTimer.getD (Timer.start 0)) } := by
  have timer : ((f.countProof p pressure).timeLow p pressure).lowTimer =
      if f.failed = true ∨ p.failPressure ≤ pressure then none else some (f.lowTimer.getD (Timer.start 0)) := by
    by_cases failed : f.failed = true
    · simp [FeedRecord.countProof, FeedRecord.timeLow, failed]
    · by_cases low : pressure < p.failPressure
      · simp [FeedRecord.countProof, FeedRecord.timeLow, failed, low]
      · simp [FeedRecord.countProof, FeedRecord.timeLow, failed, low, Nat.not_lt.mp low]
  have raised : (f.proof < 3 ∧ (if p.proofPressure ≤ pressure then min (f.proof + 1) 3 else 0) = 3) ↔
      p.proofPressure ≤ pressure ∧ f.proof = 2 := by
    split
    · rename_i proves
      simp only [proves, true_and]
      omega
    · rename_i low
      simp [low]
  have counted : ((f.countProof p pressure).timeLow p pressure).proof =
      if p.proofPressure ≤ pressure then min (f.proof + 1) 3 else 0 := rfl
  unfold FeedRecord.judge
  dsimp only
  rw [counted]
  by_cases third : p.proofPressure ≤ pressure ∧ f.proof = 2
  · rw [if_pos (raised.mpr third), timer]
    simp [third.1, third.2, FeedRecord.countProof, FeedRecord.timeLow]
  · rw [if_neg (raised.not.mpr third), ← timer]
    have kept : (decide (p.proofPressure ≤ pressure) && decide (f.proof = 2)) = false := by
      rw [← Bool.decide_and, decide_eq_false_iff_not]
      exact third
    rw [kept, Bool.not_false, Bool.and_true]
    rfl

/-! ### What the judgement of a head report leaves alone -/

/-- Between two states only the switch, the start-up, both-open, the active feed with the Cycle Timer, the commanded inlets
and the reports differ (R123, steps 4 to 6). -/
def FeedsMoved (s t : State) : Prop :=
  ∃ (feeds : Vector FeedRecord 2) (activeFeed : Feed) (switch : Option Switch) (startup : Option Timer) (bothOpen : Bool)
    (timer : CycleTimer) (incidents : IncidentList) (ports : Vector LinkPort 4),
    t = { s with
      feeds := feeds, activeFeed := activeFeed, switch := switch, startup := startup, bothOpen := bothOpen, timer := timer,
      incidents := incidents, ports := ports } ∧
    ∀ f : Feed, (feeds.get f.idx).proof = (s.feed f).proof ∧ (feeds.get f.idx).failed = (s.feed f).failed ∧
      (feeds.get f.idx).lowTimer = (s.feed f).lowTimer

section Moved

variable {s t u : State}

theorem FeedsMoved.refl (s : State) : FeedsMoved s s := ⟨_, _, _, _, _, _, _, _, rfl, fun _ => ⟨rfl, rfl, rfl⟩⟩

theorem FeedsMoved.trans (first : FeedsMoved s t) (second : FeedsMoved t u) : FeedsMoved s u := by
  obtain ⟨_, _, _, _, _, _, _, _, rfl, kept⟩ := first
  obtain ⟨_, _, _, _, _, _, _, _, rfl, kept'⟩ := second
  refine ⟨_, _, _, _, _, _, _, _, rfl, fun f => ?_⟩
  obtain ⟨proof, failed, timer⟩ := kept f
  obtain ⟨proof', failed', timer'⟩ := kept' f
  exact ⟨proof'.trans proof, failed'.trans failed, timer'.trans timer⟩

theorem FeedsMoved.ended (s : State) (switch : Option Switch) (startup : Option Timer) (bothOpen : Bool) :
    FeedsMoved s { s with switch := switch, startup := startup, bothOpen := bothOpen } :=
  ⟨_, _, _, _, _, _, _, _, rfl, fun _ => ⟨rfl, rfl, rfl⟩⟩

theorem FeedsMoved.changeActive (s : State) (f : Feed) : FeedsMoved s (changeActive f s) :=
  ⟨_, _, _, _, _, _, _, _, rfl, fun _ => ⟨rfl, rfl, rfl⟩⟩

theorem FeedsMoved.setInlet (s : State) (g : Feed) (v : Valve) : FeedsMoved s (s.setInlet g v) := by
  refine ⟨_, _, _, _, _, _, _, _, rfl, fun f => ?_⟩
  have record : (put s.feeds g.idx { s.feed g with inlet := v }).get f.idx =
      if f = g then { s.feed g with inlet := v } else s.feed f := State.setInlet_feed s g f v
  rw [record]
  split
  · rename_i same
    subst same
    exact ⟨rfl, rfl, rfl⟩
  · exact ⟨rfl, rfl, rfl⟩

theorem FeedsMoved.report (s : State) (kind : Kind) (subject : Subject) (detail : Option Int) :
    FeedsMoved s (report kind subject detail s) := by
  simp only [Machine.report]
  split <;> exact ⟨_, _, _, _, _, _, _, _, rfl, fun _ => ⟨rfl, rfl, rfl⟩⟩

end Moved

/-! ### The switch, the start-up and both-open (R123, steps 4 to 6) -/

section Steps

variable {before s : State} {w : Switch}

theorem raisedToThree_iff (before after : State) (f : Feed) :
    raisedToThree before after f = true ↔ (before.feed f).proof < 3 ∧ (after.feed f).proof = 3 := by
  simp [raisedToThree]

theorem judgeSwitch_none (before : State) (still : s.switch = none) : judgeSwitch before s = s := by
  simp [judgeSwitch, still]

theorem judgeSwitch_opening (flying : s.switch = some w) (opening : w.phase = .opening) :
    judgeSwitch before s = if raisedToThree before s w.target then proveSwitch w s else s := by
  simp [judgeSwitch, flying, opening]

theorem judgeSwitch_closingOld (flying : s.switch = some w) (closing : w.phase = .closingOld) :
    judgeSwitch before s = if s.inletFeedback w.origin = .closed then { s with switch := none } else s := by
  simp [judgeSwitch, flying, closing]

theorem judgeSwitch_moved (before s : State) : FeedsMoved s (judgeSwitch before s) := by
  cases flying : s.switch with
  | none => rw [judgeSwitch_none before flying]; exact .refl s
  | some w =>
    cases phase : w.phase with
    | opening =>
      rw [judgeSwitch_opening flying phase]
      split
      · exact ((FeedsMoved.changeActive s w.target).trans (.setInlet _ w.origin .closed)).trans (.ended _ _ _ _)
      · exact .refl s
    | closingOld =>
      rw [judgeSwitch_closingOld flying phase]
      split
      · exact .ended s none s.startup s.bothOpen
      · exact .refl s

theorem judgeStartup_moved (before s : State) : FeedsMoved s (judgeStartup before s) := by
  unfold judgeStartup
  split
  · exact .ended s s.switch none s.bothOpen
  · exact .refl s

/-- Both-open ends when the active feed is clear and proven, or by a failover to the other that is (R131). -/
theorem resolveBothOpen_eq (s : State) :
    resolveBothOpen s =
      if s.bothOpen = true then
        if (s.feed s.activeFeed).failed = false ∧ (s.feed s.activeFeed).proof = 3 then
          { s.setInlet s.activeFeed.other .closed with bothOpen := false }
        else if (s.feed s.activeFeed).failed = true ∧ (s.feed s.activeFeed.other).failed = false ∧
            (s.feed s.activeFeed.other).proof = 3 ∧ s.params.failoverEnable = true then
          { reportFailover s.activeFeed ((changeActive s.activeFeed.other s).setInlet s.activeFeed .closed) with
            bothOpen := false }
        else s
      else s := rfl

theorem resolveBothOpen_moved (s : State) : FeedsMoved s (resolveBothOpen s) := by
  rw [resolveBothOpen_eq]
  split
  · split
    · exact (FeedsMoved.setInlet s _ _).trans (.ended _ _ _ _)
    · split
      · exact (((FeedsMoved.changeActive s _).trans (.setInlet _ _ _)).trans (.report _ _ _ _)).trans (.ended _ _ _ _)
      · exact .refl s
  · exact .refl s

end Steps

/-! ### Taking a head report (R21, R27) -/

section Taking

variable {s : State} {x : Exchange} {r : HeadReport}

theorem takeHead_good (inProgress : s.scanner.exchange = some x) (good : goodFor headModule r.number x s = true) :
    takeHead r s = feedJudgement (enterHead r (endExchange s)) := by
  simp only [takeHead, inProgress, good, if_true]
  rfl

theorem takeHead_bad (inProgress : s.scanner.exchange = some x) (bad : ¬ goodFor headModule r.number x s = true) :
    takeHead r s = missExchange s := by
  simp only [takeHead, inProgress, bad]
  rfl

theorem takeHead_idle (r : HeadReport) (idle : s.scanner.exchange = none) : takeHead r s = s := by
  simp only [takeHead, idle]

theorem enterHead_eq (r : HeadReport) (s : State) :
    enterHead r s = { s with head :=
      { pressureA := (max 0 (min r.pressureA (1000 : Nat))).toNat, pressureB := (max 0 (min r.pressureB (1000 : Nat))).toNat,
        inletA := r.inletA, inletB := r.inletB, link := .online, misses := 0 } } := by
  rw [enterHead, saturate_zero, saturate_zero]

theorem judgeFeeds_eq (s : State) :
    judgeFeeds s = (s.setFeed .a ((s.feed .a).judge s.params s.head.pressureA)).setFeed .b
      ((s.feed .b).judge s.params s.head.pressureB) := rfl

theorem judgeFeeds_feed (s : State) (f : Feed) :
    (judgeFeeds s).feed f = (s.feed f).judge s.params (s.pressure f) := by
  rw [judgeFeeds_eq, State.setFeed_feed, State.setFeed_feed]
  cases f <;> rfl

theorem feedJudgement_moved (s : State) : FeedsMoved (judgeFeeds s) (feedJudgement s) :=
  ((judgeSwitch_moved s _).trans (judgeStartup_moved s _)).trans (resolveBothOpen_moved _)

/-- What the judgement of a head report leaves as it was, and each feed's count, mark and timer after it. -/
theorem feedJudgement_frame (s : State) :
    let t := feedJudgement s
    t.scanner = s.scanner ∧ t.head = s.head ∧
      (∀ f, (t.feed f).proof = ((s.feed f).judge s.params (s.pressure f)).proof ∧
        (t.feed f).failed = ((s.feed f).judge s.params (s.pressure f)).failed ∧
        (t.feed f).lowTimer = ((s.feed f).judge s.params (s.pressure f)).lowTimer) ∧
      t.branches = s.branches ∧ t.measured = s.measured ∧ t.segments = s.segments ∧ t.leases = s.leases ∧
      t.planActive = s.planActive ∧ t.mode = s.mode ∧ t.params = s.params := by
  obtain ⟨_, _, _, _, _, _, _, _, frame, feeds⟩ := feedJudgement_moved s
  rw [frame]
  refine ⟨rfl, rfl, fun f => ?_, rfl, rfl, rfl, rfl, rfl, rfl, rfl⟩
  rw [← judgeFeeds_feed]
  exact feeds f

end Taking

/-- Settles O36: a good report entered and judged, with its frame; any other a miss or discarded; then each step. -/
theorem aHeadReportIsEnteredAndJudged : Obligations.AHeadReportIsEnteredAndJudged := by
  refine ⟨fun s after r runs => ?_, fun before s => ?_⟩
  · intro u range pressure filled judged
    have scanner : u.scanner = s.scanner := s.elapse_scanner after
    have clock : u.clock = s.clock + after := s.elapse_clock after
    have measured : u.measured = s.measured := s.elapse_measured after
    have segments : u.segments = s.segments := s.elapse_segments after
    have active : u.planActive = s.planActive := s.elapse_planActive after
    have mode : u.mode = s.mode := s.elapse_mode after
    have params : u.params = s.params := s.elapse_params after
    have taken : exec (.headReport after r) s = .next (takeHead r u) := exec_headReport after r runs
    have missed : exec (.exchangeMiss after) s = .next (missExchange u) := exec_exchangeMiss after runs
    clear_value u
    have entry : enterHead r (endExchange u) = filled := by
      rw [enterHead_eq, endExchange, scanner]
      rfl
    have judgedFeed (f : Feed) : (filled.feed f).judge filled.params (filled.pressure f) = judged f := by
      have record : (u.feed f).judge s.params (filled.pressure f) = judged f := by
        rw [FeedRecord.judge_eq]
        cases f <;> rfl
      rw [← record, ← params]
      rfl
    rw [taken]
    refine ⟨fun x inProgress addressed number inTime => ?_, fun x inProgress bad => ?_, fun idle => ?_⟩
    · have good : goodFor headModule r.number x u = true :=
        (goodFor_iff _ _ _ _).mpr ⟨addressed, scanner ▸ number, clock ▸ inTime⟩
      rw [takeHead_good (scanner ▸ inProgress) good, entry]
      obtain ⟨scanned, headIs, feeds, branches, measuredKept, segmentsKept, leases, activeKept, modeKept, paramsKept⟩ :=
        feedJudgement_frame filled
      refine ⟨_, rfl, ?_, scanned, headIs, fun f => judgedFeed f ▸ feeds f, branches, measuredKept.trans measured,
        segmentsKept.trans segments, leases, activeKept.trans active, modeKept.trans mode, paramsKept.trans params⟩
      rw [← judgedFeed .a, ← judgedFeed .b]
      rfl
    · rw [missed, takeHead_bad (scanner ▸ inProgress) (not_goodFor (scanner ▸ clock ▸ bad))]
    · rw [takeHead_idle r (scanner ▸ idle)]
  · intro raised old turned proven
    have raisedIff (f : Feed) : raisedToThree before s f = true ↔ raised f := raisedToThree_iff before s f
    refine ⟨fun still => judgeSwitch_none before still, fun w flying => ⟨fun opening up => ?_, fun opening flat => ?_,
      fun closing shut => ?_, fun closing ajar => ?_⟩, fun present up => ?_, fun waits => ?_, fun both proved => ?_,
      fun both failed proved enabled => ?_, fun waits => ?_⟩
    · rw [judgeSwitch_opening flying opening, if_pos ((raisedIff _).mpr up)]
      rfl
    · rw [judgeSwitch_opening flying opening, if_neg ((raisedIff _).not.mpr flat)]
    · rw [judgeSwitch_closingOld flying closing, if_pos shut]
    · rw [judgeSwitch_closingOld flying closing, if_neg ajar]
    · rw [judgeStartup, if_pos ⟨present, (raisedIff _).mpr up⟩]
    · rw [judgeStartup, if_neg]
      rintro ⟨present, up⟩
      rcases waits with absent | flat
      · exact present absent
      · exact flat ((raisedIff _).mp up)
    · rw [resolveBothOpen_eq, if_pos both, if_pos proved]
      rfl
    · have unproved : ¬ ((s.feed s.activeFeed).failed = false ∧ (s.feed s.activeFeed).proof = 3) := fun h => by
        rw [show (s.feed s.activeFeed).failed = true from failed] at h
        exact nomatch h.1
      rw [resolveBothOpen_eq, if_pos both, if_neg unproved, if_pos ⟨failed, proved.1, proved.2, enabled⟩]
      rfl
    · rw [resolveBothOpen_eq]
      rcases waits with shut | ⟨unproved, other⟩
      · rw [if_neg (by simp [shut])]
      · have stays : ¬ ((s.feed s.activeFeed).failed = true ∧ (s.feed s.activeFeed.other).failed = false ∧
            (s.feed s.activeFeed.other).proof = 3 ∧ s.params.failoverEnable = true) := fun ⟨failed, clear, third, enabled⟩ =>
          other ⟨failed, ⟨clear, third⟩, enabled⟩
        by_cases both : s.bothOpen = true
        · rw [if_pos both, if_neg unproved, if_neg stays]
        · rw [if_neg both]

end Sys2Proof.Machine

/-! ## The Store Controller: saves and mark writes -/

namespace Sys2Proof.Machine

open Sys2Proof

/-! ### Where a block of bytes stands in a longer one -/

/-- The bytes of `block` stand from position `place` on. -/
def StandsAt (bytes : List Byte) (place : Nat) (block : List Byte) : Prop :=
  ∀ j < block.length, at1 bytes (place + j) = at1 block j

section Standing

variable {bytes rest block : List Byte} {place : Nat}

theorem at1_append_left {i : Nat} (within : i < bytes.length) (rest : List Byte) : at1 (bytes ++ rest) i = at1 bytes i := by
  simp [at1, List.getElem?_append_left within]

theorem at1_append_right (bytes rest : List Byte) (i : Nat) : at1 (bytes ++ rest) (bytes.length + i) = at1 rest i := by
  simp [at1, List.getElem?_append_right]

theorem StandsAt.self (block : List Byte) : StandsAt block 0 block := fun j _ => by rw [Nat.zero_add]

theorem StandsAt.append_left (h : StandsAt bytes place block) (within : place + block.length ≤ bytes.length)
    (rest : List Byte) : StandsAt (bytes ++ rest) place block := fun j below => by
  rw [at1_append_left (by omega), h j below]

theorem StandsAt.append_right (h : StandsAt rest place block) (bytes : List Byte) :
    StandsAt (bytes ++ rest) (bytes.length + place) block := fun j below => by
  rw [Nat.add_assoc, at1_append_right, h j below]

theorem StandsAt.flatMap {α : Type} {f : α → List Byte} {k : Nat} (each : ∀ x, (f x).length = k) :
    ∀ {xs : List α} {i : Nat} {x : α}, xs[i]? = some x → StandsAt (xs.flatMap f) (k * i) (f x)
  | y :: ys, 0, x, here => by
    obtain rfl : y = x := Option.some.inj here
    rw [List.flatMap_cons]
    exact (StandsAt.self (f y)).append_left (by simp) _
  | y :: ys, i + 1, x, here => by
    rw [List.flatMap_cons]
    have place : k * (i + 1) = (f y).length + k * i := by rw [each, Nat.mul_succ, Nat.add_comm]
    rw [place]
    exact (StandsAt.flatMap each (xs := ys) here).append_right _

theorem at2_of_standsAt (h : StandsAt bytes place block) (i : Nat) (within : i + 1 < block.length) :
    at2 bytes (place + i) = at2 block i := by
  rw [at2, at2, Nat.add_assoc, h i (by omega), h (i + 1) within]

theorem at4_of_standsAt (h : StandsAt bytes place block) (i : Nat) (within : i + 3 < block.length) :
    at4 bytes (place + i) = at4 block i := by
  rw [at4, at4, Nat.add_assoc, at2_of_standsAt h i (by omega), at2_of_standsAt h (i + 2) within]

end Standing

/-! ### The image (R190, R191) -/

/-! The parts of the image, at their places. -/

section Layout

variable (s : State)

theorem length_imageParams : (paramNumbers.flatMap fun n => signed4 (s.params.value n)).length = 120 :=
  (length_flatMap_const paramNumbers (k := 4) fun _ => rfl).trans (by decide)

theorem length_imageEntries : (allBranches.flatMap fun b => entryBytes b (s.entry b)).length = 480 := by
  rw [length_flatMap_const allBranches fun b => length_entryBytes b (s.entry b), allBranches, List.length_finRange]

theorem standsAt_header : StandsAt (imageOf s) 0 (byte2 1 ++ byte2 620) := by
  unfold imageOf imageBody
  refine StandsAt.append_left (StandsAt.append_left (StandsAt.append_left (StandsAt.append_left (.self _) ?_ _) ?_ _) ?_ _) ?_ _ <;>
    simp only [List.length_append, length_byte2] <;> omega

theorem standsAt_param {i n : Nat} (number : paramNumbers[i]? = some n) :
    StandsAt (imageOf s) (4 + 4 * i) (signed4 (s.params.value n)) := by
  have few : i < 30 := by
    have := (List.getElem?_eq_some_iff.mp number).1
    exact this
  have own := (StandsAt.flatMap (f := fun n => signed4 (s.params.value n)) (fun _ => length_signed4 _) number).append_right
    (byte2 1 ++ byte2 620)
  have params := length_imageParams s
  unfold imageOf imageBody
  refine StandsAt.append_left (StandsAt.append_left (StandsAt.append_left own ?_ _) ?_ _) ?_ _ <;>
    simp only [List.length_append, length_byte2, length_signed4, params] <;> omega

theorem standsAt_entry (b : BranchId) : StandsAt (imageOf s) (124 + 10 * b.val) (entryBytes b (s.entry b)) := by
  have listed : allBranches[b.val]? = some b := by simp [allBranches]
  have own := (StandsAt.flatMap (f := fun b => entryBytes b (s.entry b)) (fun b => length_entryBytes b _) listed).append_right
    (byte2 1 ++ byte2 620 ++ paramNumbers.flatMap fun n => signed4 (s.params.value n))
  have place : (byte2 1 ++ byte2 620 ++ paramNumbers.flatMap fun n => signed4 (s.params.value n)).length = 124 := by
    rw [List.length_append, length_imageParams]
    rfl
  rw [place] at own
  unfold imageOf imageBody
  refine StandsAt.append_left (StandsAt.append_left own ?_ _) ?_ _ <;>
    simp only [List.length_append, length_byte2, length_entryBytes, length_imageParams, length_imageEntries] <;> omega

theorem standsAt_policy (z : SegId) : StandsAt (imageOf s) (604 + z.val) (byte1 (s.zone z).policy.code) := by
  have listed : allSegments[z.val]? = some z := by simp [allSegments]
  have own := (StandsAt.flatMap (f := fun z => byte1 (s.zone z).policy.code) (fun _ => rfl) listed).append_right
    (byte2 1 ++ byte2 620 ++ (paramNumbers.flatMap fun n => signed4 (s.params.value n)) ++
      allBranches.flatMap fun b => entryBytes b (s.entry b))
  have place : (byte2 1 ++ byte2 620 ++ (paramNumbers.flatMap fun n => signed4 (s.params.value n)) ++
      allBranches.flatMap fun b => entryBytes b (s.entry b)).length = 604 := by
    rw [List.length_append, List.length_append, length_imageParams, length_imageEntries]
    rfl
  rw [place, Nat.one_mul] at own
  have policies : (allSegments.flatMap fun z => byte1 (s.zone z).policy.code).length = 16 := by
    rw [length_flatMap_const allSegments (k := 1) fun _ => rfl, allSegments, List.length_finRange]
  have one : (byte1 (s.zone z).policy.code).length = 1 := rfl
  unfold imageOf imageBody
  refine own.append_left ?_ _
  rw [List.length_append, place, policies, one]
  omega

end Layout

/-- The image computed for a save is a good one. -/
theorem goodImage_imageOf (s : State) : goodImage (imageOf s) = true := by
  have format : at2 (imageOf s) 0 = 1 := at2_of_standsAt (standsAt_header s) 0 (by decide)
  have length : at2 (imageOf s) 2 = 620 := at2_of_standsAt (standsAt_header s) 2 (by decide)
  have body : (imageOf s).take 620 = imageBody s := by
    rw [imageOf, List.take_left' (length_imageBody s)]
  have crc : at2 (imageOf s) 620 = (crc16 (imageBody s)).toNat := by
    have stands : StandsAt (imageOf s) 620 (byte2 (crc16 (imageBody s)).toNat) := by
      have := (StandsAt.self (byte2 (crc16 (imageBody s)).toNat)).append_right (imageBody s)
      rwa [length_imageBody] at this
    have read := at2_of_standsAt stands 0 (by simp)
    rwa [at2_byte2 (crc16 (imageBody s)).isLt] at read
  simp only [goodImage, format, length, body, crc, beq_self_eq_true, Bool.and_self]

/-! ### SAVE_CONFIG and the page writes (R193) -/

theorem exec_saveConfig {s : State} (ready : Ready s .rm) :
    exec (.saveConfig .rm []) s = .next ((saveConfig s).2.answering .rm 0x40 (saveConfig s).1) :=
  request_handled ready (by simp) (by simp)

theorem exec_savePageWriteEnd {s : State} (after : Nat) (acknowledged : Bool) (runs : s.running = true) :
    exec (.savePageWriteEnd after acknowledged) s = .next (pageWriteEnds acknowledged (s.elapse after)) := event_taken runs

section Pages

variable {s : State} {v : Save}

theorem pageWriteEnds_acknowledged (saves : s.store.save = some v) (free : s.store.write = none) :
    pageWriteEnds true s =
      { s with
        store := { s.store with
          save := if v.page + 1 < 20 then some { v with page := v.page + 1, failures := 0 } else none }
        imageTorn := s.imageTorn && decide (v.page + 1 < 20)
        eeprom := writeBytes s.eeprom (32 * v.page) ((v.image.drop (32 * v.page)).take 32) } := by
  have place : Config.imageBase + v.page * Config.pageBytes = 32 * v.page := by
    rw [Nat.mul_comm]; exact Nat.zero_add _
  have bytes : pageOf v.image v.page = (v.image.drop (32 * v.page)).take 32 := by
    rw [pageOf, Nat.mul_comm]; rfl
  have pages : Config.savePages = 20 := rfl
  simp only [pageWriteEnds, saves, free, if_true, place, bytes, pages]
  by_cases more : v.page + 1 < 20 <;> simp [more]

theorem pageWriteEnds_failed (saves : s.store.save = some v) (free : s.store.write = none) :
    pageWriteEnds false s =
      if v.failures + 1 < 3 then
        { s with store := { s.store with save := some { v with failures := v.failures + 1 } } }
      else report .storeFault .nothing (some 1) { s with store := { s.store with save := none }, imageTorn := true } := by
  simp only [pageWriteEnds, saves, free]
  rfl

theorem pageWriteEnds_waits (acknowledged : Bool) (waits : s.store.save = none ∨ s.store.write ≠ none) :
    pageWriteEnds acknowledged s = s := by
  unfold pageWriteEnds
  split
  · rename_i saves free
    rcases waits with idle | busy
    · rw [idle] at saves; cases saves
    · exact absurd free busy
  · rfl

end Pages

/-- Settles O48: SAVE_CONFIG, the image, and a page write's end acknowledged and not. -/
theorem savesWriteTheirPages : Obligations.SavesWriteTheirPages := by
  intro s saving
  refine ⟨fun ready idle => ?_, fun ready busy => ?_, ⟨length_imageOf s, goodImage_imageOf s⟩, fun after runs => ?_⟩
  · rw [exec_saveConfig ready, saveConfig, idle]; rfl
  · rw [exec_saveConfig ready, saveConfig, if_pos (Option.isSome_iff_ne_none.mpr busy)]; rfl
  · intro u written
    obtain ⟨save, -, write⟩ := s.elapse_store after
    have eeprom : u.eeprom = s.eeprom := s.elapse_eeprom after
    have ended (acknowledged : Bool) :
        exec (.savePageWriteEnd after acknowledged) s = .next (pageWriteEnds acknowledged u) :=
      exec_savePageWriteEnd after acknowledged runs
    change u.store.save = s.store.save at save
    change u.store.write = s.store.write at write
    clear_value u
    refine ⟨fun v saves free => ⟨fun more => ?_, fun last => ?_, fun few => ?_, fun third => ?_⟩, fun acknowledged waits => ?_⟩
    · rw [ended, pageWriteEnds_acknowledged (save.trans saves) (write.trans free), eeprom]
      have next : v.page + 1 < 20 := by omega
      simp only [next, if_true, decide_true, Bool.and_true]
      rfl
    · rw [ended, pageWriteEnds_acknowledged (save.trans saves) (write.trans free), eeprom]
      have done : ¬ v.page + 1 < 20 := by omega
      simp only [done, if_false, decide_false, Bool.and_false]
      rfl
    · rw [ended, pageWriteEnds_failed (save.trans saves) (write.trans free), if_pos (by omega)]
    · rw [ended, pageWriteEnds_failed (save.trans saves) (write.trans free), if_neg (by omega)]
    · rw [ended, pageWriteEnds_waits acknowledged (by rwa [save, write])]

/-! ### The mark write queue (R194) -/

/-- Whether a retry wait is present does not change as time passes: it stays at 0. -/
theorem State.elapse_retry_none (s : State) (ms : Nat) : (s.elapse ms).store.retry = none ↔ s.store.retry = none := by
  refine (State.elapse_induction (P := fun t => t.store.retry = none ↔ s.store.retry = none) (fun _ _ h => h) ?_ ?_ ms
    Iff.rfl).2
  · intro t n h
    rw [← h]
    exact Option.map_eq_none_iff
  · intro t h
    rwa [takeLeaseMarks_store]

theorem exec_markWriteStart {s : State} (after : Nat) (runs : s.running = true) :
    exec (.markWriteStart after) s = .next (startMarkWrite (s.elapse after)) := event_taken runs

theorem exec_markWriteEnd {s : State} (after : Nat) (acknowledged : Bool) (runs : s.running = true) :
    exec (.markWriteEnd after acknowledged) s = .next (markWriteEnds acknowledged (s.elapse after)) := event_taken runs

theorem exec_markRetryExpiry {s : State} (after : Nat) (runs : s.running = true) :
    exec (.markRetryExpiry after) s = .next (markRetryEnds (s.elapse after)) := event_taken runs

section Marks

variable {s : State}

theorem startMarkWrite_starts {e : MarkEntry} {rest : List MarkEntry} (save : s.store.save = none) (retry : s.store.retry = none)
    (write : s.store.write = none) (queue : s.store.queue = e :: rest) :
    startMarkWrite s = { s with store := { s.store with
      write := some { branch := e.branch, value := e.value, failures := 0, replaced := false } } } := by
  simp only [startMarkWrite, save, retry, write, queue]

theorem startMarkWrite_barred
    (barred : s.store.save ≠ none ∨ s.store.retry ≠ none ∨ s.store.write ≠ none ∨ s.store.queue = []) :
    startMarkWrite s = s := by
  unfold startMarkWrite
  split
  · rename_i save retry write queue
    rcases barred with h | h | h | h
    · exact absurd save h
    · exact absurd retry h
    · exact absurd write h
    · rw [h] at queue; cases queue
  · rfl

theorem markWriteEnds_acknowledged {w : MarkWrite} {e : MarkEntry} {rest : List MarkEntry} (write : s.store.write = some w)
    (queue : s.store.queue = e :: rest) :
    markWriteEnds true s = { s with
      store := { s.store with write := none, queue := if w.replaced = true then e :: rest else rest }
      eeprom := writeBytes s.eeprom (4096 + 2 * w.branch.val) (if w.value then [0x01, 0xFE] else [0x00, 0xFF]) } := by
  simp only [markWriteEnds, write, if_true, queueAfterWrite, queue, List.tail_cons]
  rfl

theorem markWriteEnds_failed {w : MarkWrite} (write : s.store.write = some w) :
    markWriteEnds false s =
      if w.failures + 1 < 3 then
        { s with store := { s.store with write := some { w with failures := w.failures + 1 } } }
      else report .storeFault .nothing (some 2)
        { s with store := { s.store with write := none, retry := some (Timer.start 10) } } := by
  simp only [markWriteEnds, write]
  rfl

theorem markRetryEnds_due {k : Timer} (retry : s.store.retry = some k) (ended : k.steps = 0) :
    markRetryEnds s = startMarkWrite { s with store := { s.store with retry := none } } :=
  if_pos ((isOver_iff _).mpr ⟨k, retry, ended⟩)

/-! A mark write handed on. -/

theorem queueMark_new {b : BranchId} {queue : List MarkEntry} (value : Bool) (new : ∀ e ∈ queue, e.branch ≠ b) :
    queueMark b value queue = queue ++ [{ branch := b, value := value }] := by
  have unlisted : ¬ (queue.any fun e => e.branch == b) = true := by simpa using new
  rw [queueMark, if_neg unlisted]

theorem queueMark_queued {b : BranchId} {queue : List MarkEntry} (value : Bool) (queued : ∃ e ∈ queue, e.branch = b) :
    queueMark b value queue = queue.map fun e => if e.branch = b then { branch := b, value := value } else e := by
  have listed : (queue.any fun e => e.branch == b) = true := by simpa using queued
  rw [queueMark, if_pos listed]
  refine List.map_congr_left fun e _ => ?_
  split
  · rename_i own; subst own; rfl
  · rfl

theorem MarkWrite.handed_eq (b : BranchId) (w : MarkWrite) :
    w.handed b = if w.branch = b then { w with replaced := true } else w := by
  unfold MarkWrite.handed
  split
  · rename_i own
    rw [own, beq_self_eq_true, Bool.or_true]
  · rename_i other
    rw [beq_false_of_ne other, Bool.or_false]

end Marks

/-- Settles O49: the start, the end and the retry of a mark write, and a mark write handed on. -/
theorem marksAreWrittenFromTheHead : Obligations.MarksAreWrittenFromTheHead := by
  intro s after runs u writing fresh
  obtain ⟨save, queue, write⟩ := s.elapse_store after
  have eeprom : u.eeprom = s.eeprom := s.elapse_eeprom after
  have retry : u.store.retry = none ↔ s.store.retry = none := s.elapse_retry_none after
  have started : exec (.markWriteStart after) s = .next (startMarkWrite u) := exec_markWriteStart after runs
  have ended (acknowledged : Bool) : exec (.markWriteEnd after acknowledged) s = .next (markWriteEnds acknowledged u) :=
    exec_markWriteEnd after acknowledged runs
  have retried : exec (.markRetryExpiry after) s = .next (markRetryEnds u) := exec_markRetryExpiry after runs
  change u.store.save = s.store.save at save
  change u.store.queue = s.store.queue at queue
  change u.store.write = s.store.write at write
  clear_value u
  rw [started, retried, ended, ended]
  refine ⟨fun e rest idle waits free head => ?_, fun barred => ?_, fun w writes => ⟨fun e rest head => ?_, fun few => ?_,
    fun third => ?_⟩, fun e rest k present due idle free head => ?_, fun k present due busy => ?_, fun b value => ⟨?_,
    fun new => queueMark_new value new, fun queued => queueMark_queued value queued⟩⟩
  · rw [startMarkWrite_starts (save.trans idle) (retry.mpr waits) (write.trans free) (queue.trans head)]
  · rw [startMarkWrite_barred (by rwa [save, write, queue, Ne, Ne, retry])]
  · rw [markWriteEnds_acknowledged (write.trans writes) (queue.trans head), eeprom]
  · rw [markWriteEnds_failed (write.trans writes), if_pos (by omega)]
  · rw [markWriteEnds_failed (write.trans writes), if_neg (by omega)]
  · rw [markRetryEnds_due present due,
      startMarkWrite_starts (s := { u with store := { u.store with retry := none } }) (save.trans idle) rfl (write.trans free)
        (queue.trans head)]
  · rw [markRetryEnds_due present due, startMarkWrite_barred (s := { u with store := { u.store with retry := none } })
      (.inl fun none => busy (save.symm.trans none))]
  · have handed : MarkWrite.handed b = fun w => if w.branch = b then { w with replaced := true } else w :=
      funext (MarkWrite.handed_eq b)
    rw [handMark, handed]

end Sys2Proof.Machine

/-! ## The tuning parameters: one written, what it does, and an image of them loaded -/

namespace Sys2Proof.Machine

open Sys2Proof

/-! ### Values and numbers (R186) -/

theorem saturate_toNat {lo hi : Nat} (range : lo ≤ hi) (v : Int) :
    saturate lo hi v = (max (lo : Int) (min v hi)).toNat := by
  have := saturate_eq_max_min range v
  omega

theorem saturate_fits {lo hi : Nat} {v : Int} (low : (lo : Int) ≤ v) (high : v ≤ hi) : (saturate lo hi v : Int) = v := by
  rw [saturate_eq_max_min (by omega)]
  omega

theorem boolCode_inj {a b : Bool} : boolCode a = boolCode b ↔ a = b := by cases a <;> cases b <;> decide

theorem Timing.code_inj {a b : Timing} : Timing.code a = Timing.code b ↔ a = b := by cases a <;> cases b <;> decide

theorem Feed.idx_val_inj {f g : Feed} : f.idx.val = g.idx.val ↔ f = g := by cases f <;> cases g <;> decide

/-- The 30 values determine the parameters. -/
theorem Params.eq_of_value {p q : Params} (same : ∀ n, 1 ≤ n → n ≤ 30 → q.value n = p.value n) : q = p := by
  have listed : ∀ n ∈ [1, 2, 3, 4, 5, 6, 7, 8, 9, 10, 11, 12, 13, 14, 15, 16, 17, 18, 19, 20, 21, 22, 23, 24, 25, 26, 27, 28,
      29, 30], q.value n = p.value n := by
    intro n here
    simp only [List.mem_cons, List.not_mem_nil, or_false] at here
    exact same n (by omega) (by omega)
  cases q
  cases p
  simpa only [List.forall_mem_cons, List.not_mem_nil, false_implies, implies_true, and_true, Params.value, Nat.cast_inj,
    boolCode_inj, Timing.code_inj, Feed.idx_val_inj, Params.mk.injEq] using listed

/-- The numeric parameters that are written as they are saturated: number, least and greatest value (R186). -/
def numericRanges : List (Nat × Nat × Nat) :=
  [(1, 50, 1000), (2, 10, 500), (3, 50, 1200), (4, 1, 8), (5, 0, 500), (8, 1, 12), (9, 10, 600), (10, 0, 100), (12, 1, 100),
   (13, 1, 200), (14, 50, 2000), (15, 1, 500), (16, 300, 900), (20, 5, 100), (21, 50, 600), (24, 0, 200), (25, 100, 10000),
   (26, 1, 100), (27, 50, 3000), (28, 100, 1200), (29, 0, 100), (30, 100, 3000)]

section Write

variable {p q : Params} {n lo hi : Nat} {v : Int} {clamped : Bool}

theorem numericRanges_ordered (listed : (n, lo, hi) ∈ numericRanges) : lo ≤ hi :=
  (by decide : ∀ r ∈ numericRanges, r.2.1 ≤ r.2.2) _ listed

theorem Params.write_numeric (p : Params) (v : Int) (listed : (n, lo, hi) ∈ numericRanges) :
    ∃ q, p.write n v = some (q, outOfRange lo hi v) ∧ q.value n = saturate lo hi v := by
  simp only [numericRanges, List.mem_cons, Prod.mk.injEq, List.not_mem_nil, or_false] at listed
  rcases listed with h | h | h | h | h | h | h | h | h | h | h | h | h | h | h | h | h | h | h | h | h | h <;>
    obtain ⟨rfl, rfl, rfl⟩ := h <;> exact ⟨_, rfl, rfl⟩

/-- The parameters that are a choice between two codes, without CYCLE_MODE (R185, R186). -/
theorem Params.write_choice (p : Params) (choices : n ∈ [11, 17, 22, 23]) (low : 0 ≤ v) (high : v ≤ 1) :
    ∃ q, p.write n v = some (q, false) ∧ q.value n = v := by
  simp only [List.mem_cons, List.not_mem_nil, or_false] at choices
  obtain rfl | rfl : v = 0 ∨ v = 1 := by omega
  all_goals rcases choices with rfl | rfl | rfl | rfl <;> exact ⟨_, rfl, rfl⟩

theorem choice_none {α : Type} {codes : Nat → Option α} {set : α → Params} (large : ∀ k, 2 ≤ k → codes k = none)
    (outside : v < 0 ∨ 1 < v) : choice v codes set = none := by
  unfold choice
  split
  · rfl
  · rw [large _ (by omega)]
    rfl

theorem timingOfCode_large (k : Nat) (large : 2 ≤ k) : timingOfCode k = none := by
  rw [timingOfCode, if_neg (by omega), if_neg (by omega)]

theorem Params.write_choice_none (p : Params) (choices : n ∈ [6, 11, 17, 22, 23]) (outside : v < 0 ∨ 1 < v) :
    p.write n v = none := by
  simp only [List.mem_cons, List.not_mem_nil, or_false] at choices
  rcases choices with rfl | rfl | rfl | rfl | rfl
  · exact choice_none timingOfCode_large outside
  · exact choice_none (fun _ => boolOfCode_large) outside
  · exact choice_none (fun _ => boolOfCode_large) outside
  · exact choice_none (fun _ => boolOfCode_large) outside
  · exact choice_none (fun _ => feedOfCode_large) outside

theorem Params.write_unknown (p : Params) (v : Int) (unknown : n = 0 ∨ 30 < n) : p.write n v = none := by
  unfold Params.write
  split <;> first | omega | rfl

/-- Only the parameter named is written, but for the coupling of PROOF_PRESSURE (R134, R186). -/
theorem Params.write_others (h : p.write n v = some (q, clamped)) (uncoupled : n ≠ 18) {m : Nat} (other : m ≠ n) :
    q.value m = p.value m := by
  unfold Params.write at h
  split at h
  case h_18 => exact absurd rfl uncoupled
  case h_19 =>
    unfold Params.writeFailPressure at h
    dsimp only at h
    split at h <;> cases h <;> (unfold Params.value; split <;> first | rfl | exact absurd rfl other)
  case h_31 => cases h
  case h_6 | h_11 | h_17 | h_22 | h_23 =>
    obtain ⟨x, rfl⟩ := choice_eq h
    unfold Params.value
    split <;> first | rfl | exact absurd rfl other
  all_goals
    obtain ⟨x, -, -, rfl⟩ := numeric_eq (by decide) h
    unfold Params.value
    split <;> first | rfl | exact absurd rfl other

end Write

/-! ### SET_TUNING's effects (R71, R80, R134, R151) -/

theorem tuningEffect_plain {n : Nat} (old : Params) (s : State) (plain : n ∉ [6, 9, 20, 25]) : tuningEffect n old s = s := by
  simp only [List.mem_cons, List.not_mem_nil, or_false, not_or] at plain
  obtain ⟨mode, freeze, failover, drip⟩ := plain
  unfold tuningEffect
  split
  · exact absurd rfl mode
  · exact absurd rfl freeze
  · exact absurd rfl failover
  · exact absurd rfl drip
  · rfl

theorem lowPressureDue_iff (s : State) (f : Feed) :
    lowPressureDue s f = true ↔ ∃ k ∈ (s.feed f).lowTimer, s.params.failoverWindow ≤ k.steps := by
  unfold lowPressureDue
  cases (s.feed f).lowTimer <;> simp

theorem lowPressureEnds_due {s : State} {f : Feed} {k : Timer} (present : k ∈ (s.feed f).lowTimer)
    (reached : s.params.failoverWindow ≤ k.steps) : lowPressureEnds f s = markFailed f s :=
  if_pos ((lowPressureDue_iff s f).mpr ⟨k, present, reached⟩)

theorem lowPressureEnds_early {s : State} {f : Feed} (early : ∀ k ∈ (s.feed f).lowTimer, k.steps < s.params.failoverWindow) :
    lowPressureEnds f s = s := by
  refine if_neg fun due => ?_
  obtain ⟨k, present, reached⟩ := (lowPressureDue_iff s f).mp due
  exact absurd reached (Nat.not_le.mpr (early k present))

theorem FeedsMoved.failSwitchToward (f : Feed) (s : State) : FeedsMoved s (failSwitchToward f s) := by
  obtain same | failed := failSwitchToward_cases f s
  · rw [same]; exact .refl s
  · rw [failed]
    exact ((FeedsMoved.setInlet s f .closed).trans (.ended _ none _ _)).trans (.report _ _ _ _)

theorem FeedsMoved.failover (f : Feed) (s : State) : FeedsMoved s (failover f s) :=
  ((((FeedsMoved.setInlet s f.other .opened).trans (.setInlet _ f .closed)).trans (.changeActive _ f.other)).trans
    (.ended _ none none false)).trans (.report _ _ _ _)

/-- What a mark leaves in the records of the feeds beside the commanded inlets. -/
theorem markFailed_records (f g : Feed) (s : State) :
    ((markFailed f s).feed g).lowTimer = ((withMark f s).feed g).lowTimer ∧
      ((markFailed f s).feed g).failed = ((withMark f s).feed g).failed := by
  have moved {t : State} (h : FeedsMoved (withMark f s) t) :
      (t.feed g).lowTimer = ((withMark f s).feed g).lowTimer ∧ (t.feed g).failed = ((withMark f s).feed g).failed := by
    obtain ⟨_, _, _, _, _, _, _, _, rfl, kept⟩ := h
    obtain ⟨-, failed, timer⟩ := kept g
    exact ⟨timer, failed⟩
  cases other : (s.feed f.other).failed with
  | true =>
    rw [markFailed_both other]
    obtain ⟨feeds, -⟩ := faultCause_feeds .bothFeedsFailed (report .bothFeedsFailed .nothing none
      { ((failSwitchToward f (withMark f s)).setInlet .a .opened).setInlet .b .opened with
        switch := none, startup := none, bothOpen := true })
    have opened := ((((FeedsMoved.failSwitchToward f (withMark f s)).trans (.setInlet _ .a .opened)).trans
      (.setInlet _ .b .opened)).trans (.ended _ none none true)).trans (.report _ .bothFeedsFailed .nothing none)
    have same : (bothFeedsFailed (failSwitchToward f (withMark f s))).feed g = _ :=
      congrArg (fun v => Vector.get v g.idx) feeds
    rw [same]
    exact moved opened
  | false =>
    by_cases active : s.activeFeed = f
    · cases enabled : s.params.failoverEnable with
      | true => rw [markFailed_failover other active enabled]; exact moved (.failover f _)
      | false => rw [markFailed_reported other active enabled]; exact moved (.report _ _ _ _)
    · rw [markFailed_standby other active]; exact moved (.failSwitchToward f _)

theorem markFailed_other (f : Feed) (s : State) :
    ((markFailed f s).feed f.other).lowTimer = (s.feed f.other).lowTimer ∧
      ((markFailed f s).feed f.other).failed = (s.feed f.other).failed := by
  have records := markFailed_records f f.other s
  rwa [withMark_feed_other] at records

theorem lowPressureEnds_params (f : Feed) (s : State) : (lowPressureEnds f s).params = s.params := by
  unfold lowPressureEnds
  split
  · obtain ⟨-, -, -, params⟩ := marked_markFailed f s
    exact params
  · rfl

theorem lowPressureEnds_other (f : Feed) (s : State) :
    ((lowPressureEnds f s).feed f.other).lowTimer = (s.feed f.other).lowTimer ∧
      ((lowPressureEnds f s).feed f.other).failed = (s.feed f.other).failed := by
  unfold lowPressureEnds
  split
  · exact markFailed_other f s
  · exact ⟨rfl, rfl⟩

/-- With both timers taken in their order, a feed whose timer is due ends FAILED. -/
theorem lowPressureEnds_both_failed {s : State} {f : Feed} {k : Timer} (present : k ∈ (s.feed f).lowTimer)
    (reached : s.params.failoverWindow ≤ k.steps) :
    ((lowPressureEnds .b (lowPressureEnds .a s)).feed f).failed = true := by
  cases f with
  | a =>
    obtain ⟨⟨failed, -⟩, -⟩ := marked_markFailed .a s
    have kept : ((lowPressureEnds .b (lowPressureEnds .a s)).feed .a).failed = ((lowPressureEnds .a s).feed .a).failed :=
      (lowPressureEnds_other .b (lowPressureEnds .a s)).2
    rw [kept, lowPressureEnds_due present reached]
    exact failed
  | b =>
    rw [← lowPressureEnds_params .a s] at reached
    have kept : ((lowPressureEnds .a s).feed .b).lowTimer = (s.feed .b).lowTimer := (lowPressureEnds_other .a s).1
    rw [← kept] at present
    obtain ⟨⟨failed, -⟩, -⟩ := marked_markFailed .b (lowPressureEnds .a s)
    rw [lowPressureEnds_due present reached]
    exact failed

theorem freezeEnds_params (s : State) : (freezeEnds s).params = s.params := by
  unfold freezeEnds
  split
  · split <;> rfl
  · rfl

theorem foldl_rejudge_params (bs : List BranchId) (s : State) : (bs.foldl rejudge s).params = s.params := by
  rw [foldl_rejudge_frame]

/-! ### SET_TUNING (R186) -/

/-- The answer of a SET_TUNING that has led to state `s`. -/
def tuned (p : Port) (number : Byte) (s : State) (clamped : Bool) : Host.Outcome State Fault Refusal :=
  .next (s.answering p 0x1C
    { status := if clamped then .clamped else .ok, body := number :: signed4 (s.params.value number.toNat) })

section SetTuning

variable {s : State} {p : Port} {number : Byte} {v : BitVec 32}

theorem signedAt4_tuning (number : Byte) (v : BitVec 32) : signedAt4 (number :: byte4 v.toNat) 1 = v.toInt := by
  have read : at4 (number :: byte4 v.toNat) 1 = v.toNat := at4_byte4 v.isLt
  rw [signedAt4, read, BitVec.ofNat_toNat, BitVec.setWidth_eq]

theorem exec_setTuning (ready : Ready s p) (permitted : p = .rm ∨ p = .sp) :
    exec (.setTuning p (number :: byte4 v.toNat)) s =
      .next ((setTuning number.toNat v.toInt s).2.answering p 0x1C (setTuning number.toNat v.toInt s).1) := by
  have taken : exec (.setTuning p (number :: byte4 v.toNat)) s = _ :=
    request_handled (h := setTuning number.toNat (signedAt4 (number :: byte4 v.toNat) 1)) ready (by simp [byte4])
      (by simpa using permitted)
  rwa [signedAt4_tuning] at taken

theorem exec_setTuning_refused (ready : Ready s p) (permitted : p = .rm ∨ p = .sp)
    (refused : s.params.write number.toNat v.toInt = none) :
    exec (.setTuning p (number :: byte4 v.toNat)) s = .next (s.answering p 0x1C { status := .badValue, body := [] }) := by
  rw [exec_setTuning ready permitted, setTuning, refused]
  rfl

theorem exec_setTuning_written (ready : Ready s p) (permitted : p = .rm ∨ p = .sp) {q : Params} {clamped : Bool}
    (written : s.params.write number.toNat v.toInt = some (q, clamped)) {t : State}
    (effect : tuningEffect number.toNat s.params { s with params := q } = t) (kept : t.params = q) :
    exec (.setTuning p (number :: byte4 v.toNat)) s = tuned p number t clamped := by
  have code : byte1 number.toNat = [number] := by rw [byte1, BitVec.ofNat_toNat, BitVec.setWidth_eq]
  rw [exec_setTuning ready permitted, setTuning, written]
  dsimp only
  rw [effect, tuned, kept, code]
  rfl

end SetTuning

end Sys2Proof.Machine

/-! ## SET_TUNING, number by number (R186), and a DRIP_THRESHOLD judged afresh (R151) -/

namespace Sys2Proof.Machine

open Sys2Proof

section SetTuning

variable {s : State} {p : Port} {number : Byte} {v : BitVec 32} {lo hi : Nat}

/-- A numeric parameter without an effect of its own. -/
theorem exec_setTuning_numeric (ready : Ready s p) (permitted : p = .rm ∨ p = .sp)
    (listed : (number.toNat, lo, hi) ∈ numericRanges) (plain : number.toNat ∉ [6, 9, 20, 25]) :
    ∃ q : Params, (q.value number.toNat = ((max (lo : Int) (min v.toInt hi)).toNat : Nat) ∧
        ∀ m, m ≠ number.toNat → q.value m = s.params.value m) ∧
      exec (.setTuning p (number :: byte4 v.toNat)) s =
        tuned p number { s with params := q } (decide (v.toInt < lo ∨ hi < v.toInt)) := by
  obtain ⟨q, written, value⟩ := s.params.write_numeric v.toInt listed
  have uncoupled : number.toNat ≠ 18 := by
    intro same
    rw [same] at listed
    simp [numericRanges] at listed
  refine ⟨q, ⟨?_, fun m other => Params.write_others written uncoupled other⟩,
    exec_setTuning_written ready permitted written (tuningEffect_plain _ _ plain) rfl⟩
  rw [value, saturate_toNat (numericRanges_ordered listed)]

theorem exec_setTuning_choice (ready : Ready s p) (permitted : p = .rm ∨ p = .sp)
    (choices : number.toNat ∈ [11, 17, 22, 23]) (low : 0 ≤ v.toInt) (high : v.toInt ≤ 1) :
    ∃ q : Params, (q.value number.toNat = v.toInt ∧ ∀ m, m ≠ number.toNat → q.value m = s.params.value m) ∧
      exec (.setTuning p (number :: byte4 v.toNat)) s = tuned p number { s with params := q } false := by
  obtain ⟨q, written, value⟩ := s.params.write_choice choices low high
  have plain : number.toNat ∉ [6, 9, 20, 25] := by
    simp only [List.mem_cons, List.not_mem_nil, or_false] at choices ⊢
    omega
  have uncoupled : number.toNat ≠ 18 := by
    simp only [List.mem_cons, List.not_mem_nil, or_false] at choices
    omega
  exact ⟨q, ⟨value, fun m other => Params.write_others written uncoupled other⟩,
    exec_setTuning_written ready permitted written (tuningEffect_plain _ _ plain) rfl⟩

end SetTuning

/-! The effects of CYCLE_MODE and FREEZE_LIMIT. -/

theorem tuningEffect_cycleMode (old : Params) (s : State) :
    tuningEffect 6 old s = if old.cycleMode = s.params.cycleMode then s else { s with timer := s.timer.turned } := rfl

theorem freezeEnds_below {s : State} (below : ∀ f ∈ s.freeze, f.age.steps < s.params.freezeLimit) : freezeEnds s = s := by
  cases held : s.freeze with
  | none => exact freezeEnds_free held
  | some f => exact freezeEnds_early (h := f.holder) (age := f.age) held (below f held)

theorem Params.write_cycleMode (p : Params) (mode : Timing) :
    p.write 6 (mode.code : Int) = some ({ p with cycleMode := mode }, false) := by
  cases mode <;> rfl

/-! ### A DRIP_THRESHOLD judged afresh (R151) -/

/-- The record that a new DRIP_THRESHOLD makes of a branch's. -/
def rejudgedDrip (s : State) (b : BranchId) : Accumulator :=
  { s.drip b with
    amount := min (s.drip b).amount (4 * s.params.dripThreshold)
    level := judgeLevel s.params.dripThreshold (min (s.drip b).amount (4 * s.params.dripThreshold)) (s.drip b).level }

theorem rejudge_eq (s : State) (b : BranchId) : rejudge s b = enterJudged b (s.drip b).level (rejudgedDrip s b) s := rfl

theorem rejudge_drip_same (s : State) (b : BranchId) : (rejudge s b).drip b = rejudgedDrip s b := by
  rw [rejudge_eq, enterJudged_drip_same]

/-- Settles O25: each number's writing and effect; then the levels of a DRIP_THRESHOLD judged afresh. -/
theorem setTuningWritesAndActs : Obligations.SetTuningWritesAndActs := by
  refine ⟨fun s p number v ready permitted => ?_, fun s b => ?_⟩
  · intro n ask refused answered clamp outside only ranges
    have listed : ranges ⊆ numericRanges := by
      dsimp only [ranges]
      decide
    have written {q : Params} {clamped : Bool} (w : s.params.write n v.toInt = some (q, clamped)) {t : State}
        (effect : tuningEffect n s.params { s with params := q } = t) (kept : t.params = q) : ask = answered t clamped :=
      exec_setTuning_written ready permitted w effect kept
    have within {lo hi : Nat} (range : lo ≤ hi) : saturate lo hi v.toInt = clamp lo hi := saturate_toNat range v.toInt
    refine ⟨fun unknown => exec_setTuning_refused ready permitted (Params.write_unknown _ _ unknown),
      fun choices out => exec_setTuning_refused ready permitted (Params.write_choice_none _ choices out),
      fun choices low high => exec_setTuning_choice ready permitted choices low high, fun lo hi range => ?numeric,
      fun is7 => ?period, fun is18 => ?proof, fun is19 => ?fail, fun mode is6 code => ?mode, fun is9 => ?freeze,
      fun is20 => ?failover, fun is25 => ?drip⟩
    case numeric =>
      refine exec_setTuning_numeric ready permitted (listed range) ?_
      simp only [ranges, List.mem_cons, Prod.mk.injEq, List.not_mem_nil, or_false] at range ⊢
      omega
    case period =>
      have w : s.params.write n v.toInt =
          some ({ s.params with cyclePeriod := clamp 100 2000 / 10 * 10 }, outside 100 2000) := by
        rw [is7, ← within (by decide)]
        rfl
      refine ⟨_, ⟨?_, fun m other => Params.write_others w (by omega) other⟩,
        written w (tuningEffect_plain _ _ (by rw [is7]; decide)) rfl⟩
      rw [is7]
      rfl
    case proof =>
      refine written ?_ (tuningEffect_plain _ _ (by rw [is18]; decide)) rfl
      rw [is18, ← within (by decide)]
      rfl
    case fail =>
      have w : s.params.write n v.toInt =
          if s.params.proofPressure ≤ clamp 20 500 then
            some ({ s.params with failPressure := s.params.proofPressure - 10 }, true)
          else some ({ s.params with failPressure := clamp 20 500 }, outside 20 500) := by
        rw [is19, ← within (by decide)]
        rfl
      have plain : n ∉ [6, 9, 20, 25] := by rw [is19]; decide
      split
      · rename_i above
        rw [if_pos above] at w
        exact written w (tuningEffect_plain _ _ plain) rfl
      · rename_i below
        rw [if_neg below] at w
        exact written w (tuningEffect_plain _ _ plain) rfl
    case mode =>
      have w : s.params.write n v.toInt = some ({ s.params with cycleMode := mode }, false) := by
        rw [is6, code, Params.write_cycleMode]
      split
      · rename_i same
        refine written w ?_ (by rw [← same])
        rw [is6, tuningEffect_cycleMode, if_pos same, ← same]
      · rename_i other
        refine written w ?_ rfl
        rw [is6, tuningEffect_cycleMode, if_neg other]
        rfl
    case freeze =>
      intro w
      have entered : s.params.write n v.toInt = some ({ s.params with freezeLimit := clamp 10 600 }, outside 10 600) := by
        rw [is9, ← within (by decide)]
        rfl
      have effect : tuningEffect n s.params w = freezeEnds w := by rw [is9]; rfl
      refine ⟨fun below => written entered (effect.trans (freezeEnds_below below)) rfl, fun f held reached => ?_⟩
      exact written entered (effect.trans (freezeEnds_reached (h := f.holder) (age := f.age) held reached)) rfl
    case failover =>
      intro w t
      have entered : s.params.write n v.toInt = some ({ s.params with failoverWindow := clamp 5 100 }, outside 5 100) := by
        rw [is20, ← within (by decide)]
        rfl
      have effect : tuningEffect n s.params w = t := by rw [is20]; rfl
      refine ⟨written entered effect ((lowPressureEnds_params _ _).trans (lowPressureEnds_params _ _)), fun early => ?_,
        fun f k present reached => ⟨lowPressureEnds_due present reached, lowPressureEnds_both_failed present reached⟩⟩
      have first : lowPressureEnds .a w = w := lowPressureEnds_early (early .a)
      dsimp only [t]
      rw [first]
      exact lowPressureEnds_early (early .b)
    case drip =>
      intro w
      have entered : s.params.write n v.toInt = some ({ s.params with dripThreshold := clamp 100 10000 }, outside 100 10000) := by
        rw [is25, ← within (by decide)]
        rfl
      have effect : tuningEffect n s.params w = allBranches.foldl rejudge w := by rw [is25]; rfl
      exact written entered effect (foldl_rejudge_params _ _)
  · intro x threshold a t
    have record : t.drip b = rejudgedDrip s b := rejudge_drip_same s b
    rw [record]
    exact ⟨rfl, rfl, fun twice => judgeLevel_hard _ twice, fun atLeast below => judgeLevel_suspect _ atLeast below,
      fun below half => judgeLevel_kept _ below half, fun below => judgeLevel_none _ below, rejudge_eq s b⟩

end Sys2Proof.Machine

/-! ## A saved image loaded back (R190, R191) -/

namespace Sys2Proof.Machine

open Sys2Proof

/-! ### The parameters -/

section Params

variable {p q : Params} {n lo hi : Nat}

theorem Params.inRange_numeric (range : p.inRange) (listed : (n, lo, hi) ∈ numericRanges) :
    (lo : Int) ≤ p.value n ∧ p.value n ≤ hi := by
  unfold Params.inRange at range
  simp only [numericRanges, List.mem_cons, Prod.mk.injEq, List.not_mem_nil, or_false] at listed
  rcases listed with h | h | h | h | h | h | h | h | h | h | h | h | h | h | h | h | h | h | h | h | h | h <;>
    obtain ⟨rfl, rfl, rfl⟩ := h <;> simp only [Params.value] <;> omega

theorem Params.value_choice (p : Params) (choices : n ∈ [6, 11, 17, 22, 23]) : p.value n = 0 ∨ p.value n = 1 := by
  have bool (x : Bool) : ((boolCode x : Nat) : Int) = 0 ∨ ((boolCode x : Nat) : Int) = 1 := by cases x <;> decide
  simp only [List.mem_cons, List.not_mem_nil, or_false] at choices
  rcases choices with rfl | rfl | rfl | rfl | rfl
  · change ((p.cycleMode.code : Nat) : Int) = 0 ∨ ((p.cycleMode.code : Nat) : Int) = 1
    cases p.cycleMode <;> decide
  · exact bool p.convergenceFast
  · exact bool p.autoHandover
  · exact bool p.failoverEnable
  · change ((p.preferredFeed.idx.val : Nat) : Int) = 0 ∨ ((p.preferredFeed.idx.val : Nat) : Int) = 1
    cases p.preferredFeed <;> decide

/-- The ways in which a parameter is written (R186). -/
theorem number_cases (low : 1 ≤ n) (high : n ≤ 30) :
    (∃ lo hi, (n, lo, hi) ∈ numericRanges) ∨ n = 6 ∨ n ∈ [11, 17, 22, 23] ∨ n = 7 ∨ n = 18 ∨ n = 19 := by
  interval_cases n <;> simp [numericRanges]

/-- A parameter in range fits the four signed bytes of the image (R190). -/
theorem Params.value_fits (range : p.inRange) (low : 1 ≤ n) (high : n ≤ 30) : 0 ≤ p.value n ∧ p.value n ≤ 10000 := by
  rcases number_cases low high with ⟨lo, hi, listed⟩ | rfl | choices | rfl | rfl | rfl
  · have := Params.inRange_numeric range listed
    have top : hi ≤ 10000 := (by decide : ∀ r ∈ numericRanges, r.2.2 ≤ 10000) _ listed
    omega
  · have := p.value_choice (n := 6) (by decide)
    omega
  · have := p.value_choice (List.mem_cons_of_mem 6 choices)
    omega
  all_goals
    unfold Params.inRange at range
    simp only [Params.value]
    omega

/-- A value in range is written as it is: the parameter then has it (R191). -/
theorem Params.write_stored (range : p.inRange) (low : 1 ≤ n) (high : n ≤ 30)
    (proof : n = 19 → q.proofPressure = p.proofPressure) :
    ∃ r clamped, q.write n (p.value n) = some (r, clamped) ∧ r.value n = p.value n := by
  have bounds := range
  unfold Params.inRange at bounds
  rcases number_cases low high with ⟨lo, hi, listed⟩ | rfl | choices | rfl | rfl | rfl
  · obtain ⟨least, greatest⟩ := Params.inRange_numeric range listed
    obtain ⟨r, written, value⟩ := q.write_numeric (p.value n) listed
    exact ⟨r, _, written, value.trans (saturate_fits least greatest)⟩
  · exact ⟨_, _, q.write_cycleMode p.cycleMode, rfl⟩
  · have code := p.value_choice (List.mem_cons_of_mem 6 choices)
    obtain ⟨r, written, value⟩ := q.write_choice (v := p.value n) choices (by omega) (by omega)
    exact ⟨r, _, written, value⟩
  · refine ⟨_, _, rfl, ?_⟩
    have same := saturate_fits (lo := 100) (hi := 2000) (v := p.value 7) (by simp only [Params.value]; omega)
      (by simp only [Params.value]; omega)
    change ((saturate 100 2000 (p.value 7) / 10 * 10 : Nat) : Int) = p.value 7
    have : p.value 7 = (p.cyclePeriod : Int) := rfl
    omega
  · refine ⟨_, _, rfl, ?_⟩
    exact saturate_fits (lo := 50) (hi := 600) (by simp only [Params.value]; omega) (by simp only [Params.value]; omega)
  · have same := saturate_fits (lo := 20) (hi := 500) (v := p.value 19) (by simp only [Params.value]; omega)
      (by simp only [Params.value]; omega)
    have fail : p.value 19 = (p.failPressure : Int) := rfl
    have below : ¬ q.proofPressure ≤ saturate 20 500 (p.value 19) := by
      rw [proof rfl]
      omega
    exact ⟨_, _, if_neg below, same⟩

theorem Params.write_proofPressure_others {v : Int} {clamped : Bool} (h : p.write 18 v = some (q, clamped)) {m : Nat}
    (other : m ≠ 18) (uncoupled : m ≠ 19) : q.value m = p.value m := by
  obtain ⟨x, -, -, rfl⟩ := numeric_eq (by decide) h
  unfold Params.value
  split <;> first | rfl | exact absurd rfl other | exact absurd rfl uncoupled

/-- One parameter of a stored image taken. -/
def takeParam (values : Nat → Int) (p : Params) (n : Nat) : Params :=
  match p.write n (values n) with
  | some (q, _) => q
  | none => p

theorem Params.load_eq (values : Nat → Int) :
    Params.load values = (List.range' 1 30).foldl (takeParam values) Params.default := rfl

theorem takeParam_written {values : Nat → Int} {clamped : Bool} (h : p.write n (values n) = some (q, clamped)) :
    takeParam values p n = q := by
  rw [takeParam, h]

/-- The parameters taken so far are the stored ones: no later one changes them. -/
theorem foldl_takeParam_value {values : Nat → Int} (range : p.inRange)
    (stored : ∀ n, 1 ≤ n → n ≤ 30 → values n = p.value n) : ∀ k ≤ 30, ∀ m, 1 ≤ m → m ≤ k →
      ((List.range' 1 k).foldl (takeParam values) Params.default).value m = p.value m
  | 0, _, m, low, high => absurd high (by omega)
  | k + 1, within, m, low, high => by
    rw [List.range'_1_concat, List.foldl_append, List.foldl_cons, List.foldl_nil, Nat.add_comm 1 k]
    have taken := foldl_takeParam_value range stored k (by omega)
    generalize (List.range' 1 k).foldl (takeParam values) Params.default = q at taken ⊢
    have proof : k + 1 = 19 → q.proofPressure = p.proofPressure := fun last =>
      Int.ofNat_inj.mp (taken 18 (by omega) (by omega))
    obtain ⟨r, clamped, written, value⟩ := Params.write_stored (q := q) range (Nat.le_add_left 1 k) within proof
    rw [← stored (k + 1) (Nat.le_add_left 1 k) within] at written
    rw [takeParam_written written]
    by_cases last : m = k + 1
    · rw [last, value]
    · by_cases coupled : k + 1 = 18
      · rw [coupled] at written
        rw [Params.write_proofPressure_others written (by omega) (by omega), taken m low (by omega)]
      · rw [Params.write_others written coupled last, taken m low (by omega)]

theorem Params.load_stored {values : Nat → Int} (range : p.inRange) (stored : ∀ n, 1 ≤ n → n ≤ 30 → values n = p.value n) :
    Params.load values = p := by
  rw [Params.load_eq]
  exact Params.eq_of_value fun m low high => foldl_takeParam_value range stored 30 (by omega) m low high

end Params

/-- A signed four-byte field reads back what was written to it (R185). -/
theorem signedAt4_of_standsAt {bytes : List Byte} {place : Nat} {z : Int} (stands : StandsAt bytes place (signed4 z))
    (low : -2147483648 ≤ z) (high : z < 2147483648) : signedAt4 bytes place = z := by
  have read : at4 bytes place = (BitVec.ofInt 32 z).toNat :=
    (at4_of_standsAt stands 0 (by simp [signed4, byte4])).trans (at4_byte4 (BitVec.ofInt 32 z).isLt)
  rw [signedAt4, read, BitVec.ofNat_toNat, BitVec.setWidth_eq, BitVec.toInt_ofInt]
  exact Int.bmod_eq_of_le (by omega) (by omega)

theorem imageOf_params {s : State} (range : ParamsInRange s) :
    Params.load (fun n => signedAt4 (imageOf s) (4 + 4 * (n - 1))) = s.params := by
  refine Params.load_stored range fun n low high => ?_
  have number : paramNumbers[n - 1]? = some n := by
    rw [paramNumbers, List.getElem?_range' (by omega)]
    congr 1
    omega
  obtain ⟨least, greatest⟩ := Params.value_fits range low high
  exact signedAt4_of_standsAt (standsAt_param s number) (by omega) (by omega)

/-! ### The map -/

section Entries

variable {s : State} {b : BranchId}

theorem at1_entry (s : State) (b : BranchId) (i : Nat) (below : i < 10) :
    at1 (imageOf s) (entryPlace b + i) = at1 (entryBytes b (s.entry b)) i :=
  standsAt_entry s b i (by rwa [length_entryBytes])

theorem at2_entry (s : State) (b : BranchId) (i : Nat) (below : i + 1 < 10) :
    at2 (imageOf s) (entryPlace b + i) = at2 (entryBytes b (s.entry b)) i :=
  at2_of_standsAt (standsAt_entry s b) i (by rwa [length_entryBytes])

theorem storedEntry_imageOf_none (absent : (s.entry b).slotTag = none) : storedEntry (imageOf s) b = none := by
  have flag : at1 (imageOf s) (entryPlace b) = 0 := by
    rw [← Nat.add_zero (entryPlace b), at1_entry s b 0 (by omega), entryBytes, absent]
    rfl
  rw [storedEntry, flag, if_neg (by decide)]

theorem entryOfBytes_imageOf {t : SlotTag} (fits : (s.entry b).fits) (carried : (s.entry b).slotTag = some t) :
    ∃ clamped, entryOfBytes (imageOf s) (entryPlace b + 1) = some (s.entry b, clamped) := by
  obtain ⟨-, ⟨gainLow, gainHigh⟩, ⟨primeLow, primeHigh⟩, ⟨timeLow, timeHigh⟩⟩ := fits
  have tag : slotTagOf (at1 (imageOf s) (entryPlace b + 1)) = some t := by
    have read : at1 (imageOf s) (entryPlace b + 1) = t.val := by
      rw [at1_entry s b 1 (by omega), entryBytes, tagByte, carried]
      exact (BitVec.toNat_ofNat _ _).trans (Nat.mod_eq_of_lt (by omega))
    rw [read, slotTagOf, dif_pos t.isLt]
  have auto : boolOfCode (at1 (imageOf s) (entryPlace b + 1 + 1)) = some (s.entry b).autoAdmit := by
    rw [Nat.add_assoc, at1_entry s b 2 (by omega)]
    change boolOfCode (BitVec.ofNat 8 (if (s.entry b).autoAdmit = true then 1 else 0)).toNat = _
    cases (s.entry b).autoAdmit <;> rfl
  have authority : authorityOfCode (at1 (imageOf s) (entryPlace b + 1 + 2)) = some (s.entry b).authority := by
    rw [Nat.add_assoc, at1_entry s b 3 (by omega)]
    change authorityOfCode (BitVec.ofNat 8 (s.entry b).authority.code).toNat = _
    cases (s.entry b).authority <;> rfl
  have policy : ttlPolicyOfCode (at1 (imageOf s) (entryPlace b + 1 + 6)) = some (s.entry b).ttlPolicy := by
    rw [Nat.add_assoc, at1_entry s b 7 (by omega)]
    change ttlPolicyOfCode (BitVec.ofNat 8 (s.entry b).ttlPolicy.code).toNat = _
    cases (s.entry b).ttlPolicy <;> rfl
  have gain : at1 (imageOf s) (entryPlace b + 1 + 3) = (s.entry b).gain := by
    rw [Nat.add_assoc, at1_entry s b 4 (by omega)]
    exact (BitVec.toNat_ofNat _ _).trans (Nat.mod_eq_of_lt (by omega))
  have prime : at2 (imageOf s) (entryPlace b + 1 + 4) = (s.entry b).primePosition := by
    rw [Nat.add_assoc, at2_entry s b 5 (by omega)]
    exact at2_byte2 (by omega)
  have time : at2 (imageOf s) (entryPlace b + 1 + 7) = (s.entry b).ttlTime := by
    rw [Nat.add_assoc, at2_entry s b 8 (by omega)]
    exact at2_byte2 (by omega)
  have gainIn : gainRange (s.entry b).gain = (s.entry b).gain := by
    rw [gainRange, saturate_natCast (by decide)]; omega
  have primeIn : primeRange (s.entry b).primePosition = (s.entry b).primePosition := by
    rw [primeRange, saturate_natCast (by decide)]; omega
  have timeIn : ttlRange (s.entry b).ttlTime = (s.entry b).ttlTime := by
    rw [ttlRange, saturate_natCast (by decide)]; omega
  unfold entryOfBytes
  rw [tag, auto, authority, policy]
  dsimp only
  rw [gain, prime, time, gainIn, primeIn, timeIn, ← carried]
  exact ⟨_, rfl⟩

theorem storedEntry_imageOf_some {t : SlotTag} (fits : (s.entry b).fits) (carried : (s.entry b).slotTag = some t) :
    storedEntry (imageOf s) b = some (s.entry b) := by
  have flag : at1 (imageOf s) (entryPlace b) = 1 := by
    rw [← Nat.add_zero (entryPlace b), at1_entry s b 0 (by omega), entryBytes, carried]
    rfl
  obtain ⟨clamped, read⟩ := entryOfBytes_imageOf fits carried
  rw [storedEntry, flag, if_pos rfl, read]
  rfl

theorem loadEntry_none {image : List Byte} {t : State} (absent : storedEntry image b = none) :
    loadEntry image t b = t.setEntry b MapEntry.default := by
  unfold loadEntry
  rw [absent]

theorem loadEntry_some {image : List Byte} {t : State} {e : MapEntry} {tag : SlotTag} (stored : storedEntry image b = some e)
    (carried : e.slotTag = some tag) (free : ∀ c < b, (t.entry c).slotTag ≠ some tag) :
    loadEntry image t b = t.setEntry b e := by
  unfold loadEntry
  rw [stored]
  dsimp only
  rw [carried]
  dsimp only
  rw [if_neg]
  simpa [allBranches] using free

/-- The entries of the branches below the `k`-th are those of `s`. -/
def EntriesAgree (s : State) (k : Nat) (t : State) : Prop :=
  ∀ b : BranchId, b.val < k → t.entry b = s.entry b

/-- An entry loaded from the image of `s` is the one of `s`, once the earlier ones are. -/
theorem EntriesAgree.next {t : State} (distinct : TagsDistinct s) (fits : EntriesFit s) (earlier : EntriesAgree s b t) :
    EntriesAgree s (b + 1) (loadEntry (imageOf s) t b) := by
  have written : loadEntry (imageOf s) t b = t.setEntry b (s.entry b) := by
    cases carried : (s.entry b).slotTag with
    | none => rw [loadEntry_none (storedEntry_imageOf_none carried), ← (fits b).1 carried]
    | some tag =>
      refine loadEntry_some (storedEntry_imageOf_some (fits b) carried) carried fun c before => ?_
      rw [earlier c before]
      exact carried ▸ (distinct b c (Fin.ne_of_gt before) (by simp [carried])).symm
  intro c below
  rw [written, State.setEntry_entry]
  split
  · rename_i own; rw [own]
  · rename_i other
    have := Fin.val_ne_of_ne other
    exact earlier c (by omega)

theorem foldl_loadEntry_imageOf (distinct : TagsDistinct s) (fits : EntriesFit s) (u : State) :
    EntriesAgree s 48 (allBranches.foldl (loadEntry (imageOf s)) u) :=
  foldl_finRange_induction (P := EntriesAgree s) nofun fun _ _ => EntriesAgree.next distinct fits

end Entries

theorem zonePolicyOfCode_byte (policy : ZonePolicy) : zonePolicyOfCode (at1 (byte1 policy.code) 0) = some policy := by
  cases policy <;> rfl

theorem storedPolicy_imageOf (s : State) (z : SegId) : storedPolicy (imageOf s) z = (s.zone z).policy := by
  have read := standsAt_policy s z 0 (by simp [byte1])
  rw [Nat.add_zero] at read
  rw [storedPolicy, read, zonePolicyOfCode_byte]
  rfl

theorem foldl_loadEntry_params (image : List Byte) (bs : List BranchId) (s : State) :
    (bs.foldl (loadEntry image) s).params = s.params := by
  rw [foldl_loadEntry_frame]

theorem loadPolicies_params (image : List Byte) (s : State) : (loadPolicies image s).params = s.params :=
  rfl

theorem loadPolicies_map (image : List Byte) (s : State) : (loadPolicies image s).map = s.map :=
  rfl

theorem loadPolicies_policy (image : List Byte) (s : State) (z : SegId) :
    ((loadPolicies image s).zone z).policy = storedPolicy image z := by
  change ((mapTable (fun z x => { x with policy := storedPolicy image z }) s.zones).get z).policy = _
  rw [get_mapTable]

theorem loadImage_params (image : List Byte) (s : State) :
    (loadImage image s).params = Params.load fun n => signedAt4 image (4 + 4 * (n - 1)) := by
  rw [loadImage, loadPolicies_params, foldl_loadEntry_params]

theorem loadImage_policy (image : List Byte) (s : State) (z : SegId) :
    ((loadImage image s).zone z).policy = storedPolicy image z := by
  rw [loadImage, loadPolicies_policy]

theorem EntriesAgree.map {s t : State} (agree : EntriesAgree s 48 t) : t.map = s.map :=
  Vector.ext fun i below => agree ⟨i, below⟩ below

theorem loadImage_imageOf_map {s : State} (distinct : TagsDistinct s) (fits : EntriesFit s) (u : State) :
    (loadImage (imageOf s) u).map = s.map := by
  rw [loadImage, loadPolicies_map]
  exact (foldl_loadEntry_imageOf distinct fits _).map

/-- Settles O50: the parameters, the entries and the policies read back from their places in the image. -/
theorem aSavedImageLoadsBack : Obligations.ASavedImageLoadsBack := by
  intro s u range distinct fits
  refine ⟨?_, loadImage_imageOf_map distinct fits u, fun z => ?_⟩
  · rw [loadImage_params, imageOf_params range]
  · rw [loadImage_policy, storedPolicy_imageOf]

end Sys2Proof.Machine

/-! The link ports: frames, their bytes and the receive states (R182 to R185). -/

namespace Sys2Proof.Machine

open Sys2Proof

/-! ### The line events -/

theorem exec_firstByteOfFrame (after : Nat) (p : Port) (b : Byte) (s : State) :
    exec (.firstByteOfFrame after p b) s = lineEvent after (firstByte p b) s := rfl

theorem exec_frameDiscarded (after : Nat) (p : Port) (cause : DiscardCause) (s : State) :
    exec (.frameDiscarded after p cause) s = lineEvent after (discardFrame p) s := rfl

theorem exec_discardQuiet (after : Nat) (p : Port) (s : State) :
    exec (.discardQuiet after p) s = lineEvent after (quietLine p) s := rfl

theorem exec_answerEnd (after : Nat) (p : Port) (s : State) :
    exec (.answerEnd after p) s = lineEvent after (answerEnds p) s := rfl

/-- A passage of time moves no port's receive state: it only sets flags. -/
theorem State.elapse_rx (s : State) (ms : Nat) (p : Port) : ((s.elapse ms).port p).rx = (s.port p).rx :=
  ((elapse_changes (own := fun _ => False) s ms).2.keeps (P := fun u => (s.port p).onlyFlagged (u.port p))
    (fun change kept => LinkPort.onlyFlagged_trans kept (change.onlyFlagged id)) (LinkPort.onlyFlagged_refl _)).1

theorem lineEvent_taken {s : State} (held : s.held = false) (after : Nat) (f : State → State) :
    lineEvent after f s = .next (f (s.elapse after)) := by
  simp [lineEvent, held]

section Events

variable {s : State} {p : Port}

theorem firstByte_idle (b : Byte) (idle : (s.port p).rx = .idle) :
    firstByte p b s = s.setPort p { s.port p with rx := if b = 0xA5 then .receiving else .discarding } :=
  if_pos idle

theorem discardFrame_answering (answering : (s.port p).rx = .answering) : discardFrame p s = s :=
  if_pos answering

theorem discardFrame_receiving (other : (s.port p).rx ≠ .answering) :
    discardFrame p s = s.setPort p { s.port p with rx := .idle, answer := none } :=
  if_neg other

theorem quietLine_discarding (discarding : (s.port p).rx = .discarding) :
    quietLine p s = s.setPort p { s.port p with rx := .idle, answer := none } :=
  if_pos discarding

theorem answerEnds_answering (answering : (s.port p).rx = .answering) :
    answerEnds p s = s.setPort p { s.port p with rx := .idle, answer := none } :=
  if_pos answering

/-! ### A frame whose code the catalogue does not hold -/

theorem exec_unknownRequest_lost (code : Byte) (body : List Byte) (lost : s.takesFrame p = false) :
    exec (.unknownRequest p code body) s = .next s := by
  rw [exec_unknownRequest, lost]
  rfl

theorem exec_unknownRequest_busy (code : Byte) (body : List Byte) (takes : s.takesFrame p = true)
    (loading : s.loading = true) :
    exec (.unknownRequest p code body) s = .next (s.answering p code { status := .busy, body := [] }) := by
  rw [exec_unknownRequest, takes, loading]
  rfl

theorem exec_unknownRequest_ready (code : Byte) (body : List Byte) (ready : Ready s p) :
    exec (.unknownRequest p code body) s = .next (s.answering p code { status := .unknownRequest, body := [] }) := by
  obtain ⟨takes, loaded⟩ := ready
  rw [exec_unknownRequest, takes, loaded]
  rfl

end Events

/-! ### The bytes of a frame -/

/-- The CRC field of a frame stands behind its content. -/
theorem at2_append_byte2 (content : List Byte) {n : Nat} (fits : n < 65536) :
    at2 (content ++ byte2 n) content.length = n := by
  have stands : StandsAt (content ++ byte2 n) content.length (byte2 n) := (StandsAt.self _).append_right content
  exact (at2_of_standsAt stands 0 (by simp [byte2])).trans (at2_byte2 fits)

theorem length_frameOf (sync : Byte) (content : List Byte) : (frameOf sync content).length = content.length + 4 := by
  simp [frameOf, byte2]

theorem frame_frameBytes (after : Nat) (p : Port) (code : Byte) (body : List Byte) (short : body.length ≤ 254) :
    Decode.frame after p (Decode.frameBytes code body) = some (Decode.request p code body) := by
  have count : (BitVec.ofNat 8 (code :: body).length).toNat = (code :: body).length := by
    rw [BitVec.toNat_ofNat, Nat.mod_eq_of_lt]
    rw [List.length_cons]
    omega
  have some_bytes : BitVec.ofNat 8 (code :: body).length ≠ 0 := by
    intro zero
    rw [zero] at count
    cases count
  rw [Decode.frameBytes, frameOf]
  generalize lengthByte : BitVec.ofNat 8 (code :: body).length = length at count some_bytes
  generalize content : code :: body = bytes at count
  have whole : (bytes ++ byte2 (crc16 (length :: bytes)).toNat).length = length.toNat + 2 := by
    rw [count]
    simp [byte2]
  have crc : at2 (bytes ++ byte2 (crc16 (length :: bytes)).toNat) length.toNat = (crc16 (length :: bytes)).toNat := by
    rw [count]
    exact at2_append_byte2 bytes (crc16 _).isLt
  have taken : (bytes ++ byte2 (crc16 (length :: bytes)).toNat).take length.toNat = bytes := by
    rw [count, List.take_left']
    rfl
  unfold Decode.frame
  dsimp only [List.cons_append]
  rw [if_neg (not_not.mpr rfl), if_neg some_bytes, if_neg (not_not.mpr whole), taken, crc, if_neg (not_not.mpr rfl), ← content]

/-- The frame an answer is sent in, byte by byte (R183). -/
theorem answer_frame_laidOut (code : Byte) (status : Status) (body : List Byte) (short : body.length ≤ 253) :
    ∃ w : List Byte, Answer.frame { code := code, status := status, body := body } = w ∧
      w.length = body.length + 6 ∧ at1 w 0 = 0x5A ∧ at1 w 1 = body.length + 2 ∧ at1 w 2 = code.toNat ∧
      at1 w 3 = status.code ∧ (w.drop 4).take body.length = body ∧
      at2 w (body.length + 4) = (crc16 ((w.drop 1).take (body.length + 3))).toNat := by
  generalize content : code :: byte1 status.code ++ body = bytes
  have count : bytes.length = body.length + 2 := by
    rw [← content]
    simp [byte1]
  have spelled : Answer.frame { code := code, status := status, body := body } =
      (0x5A :: BitVec.ofNat 8 bytes.length :: bytes) ++ byte2 (crc16 (BitVec.ofNat 8 bytes.length :: bytes)).toNat := by
    rw [← content]
    rfl
  refine ⟨_, spelled, ?_, rfl, ?_, ?_, ?_, ?_, ?_⟩
  · simp [count, byte2]
  · exact (BitVec.toNat_ofNat _ _).trans (by rw [count, Nat.mod_eq_of_lt (by omega)])
  · rw [← content]
    rfl
  · rw [← content]
    cases status <;> rfl
  · rw [← content]
    simp [byte1]
  · have place : body.length + 4 = (0x5A :: BitVec.ofNat 8 bytes.length :: bytes).length := by simp [count]
    rw [place, at2_append_byte2 _ (crc16 _).isLt]
    congr 2
    rw [List.cons_append, List.drop_one, List.tail_cons, List.take_left']
    simp [count]

/-- Settles O7: line event by line event, then the two frames byte by byte. -/
theorem framesMoveTheReceiveStates : Obligations.FramesMoveTheReceiveStates := by
  refine ⟨fun p code body s => ⟨exec_unknownRequest_lost code body, exec_unknownRequest_busy code body,
    exec_unknownRequest_ready code body⟩, fun s after p held => ?_, frame_frameBytes, fun s p code status body short => ?_, rfl⟩
  · have rx := s.elapse_rx after p
    refine ⟨fun b idle => ?_, fun cause other => ?_, fun cause answering => ?_, fun discarding => ?_, fun answering => ?_⟩
    · rw [exec_firstByteOfFrame, lineEvent_taken held, firstByte_idle b (rx.trans idle)]
    · rw [exec_frameDiscarded, lineEvent_taken held, discardFrame_receiving (rx ▸ other)]
    · rw [exec_frameDiscarded, lineEvent_taken held, discardFrame_answering (rx.trans answering)]
    · rw [exec_discardQuiet, lineEvent_taken held, quietLine_discarding (rx.trans discarding)]
    · rw [exec_answerEnd, lineEvent_taken held, answerEnds_answering (rx.trans answering)]
  · obtain ⟨w, spelled, laidOut⟩ := answer_frame_laidOut code status body short
    refine ⟨w, ?_, laidOut⟩
    rw [← spelled, State.sending, State.answering, State.setPort_port, if_pos rfl]
    rfl

end Sys2Proof.Machine

/-! Answer records as concatenations of fields: what stands at a place, field by field (R183, R187). -/

namespace Sys2Proof.Machine

open Sys2Proof

/-! ### Reading a concatenation at a place -/

section Places

variable {head : List Byte} {i : Nat}

@[simp] theorem at1_append_of_lt (rest : List Byte) (here : i < head.length) : at1 (head ++ rest) i = at1 head i :=
  at1_append_left here rest

@[simp] theorem at1_append_of_le (rest : List Byte) (past : head.length ≤ i) :
    at1 (head ++ rest) i = at1 rest (i - head.length) := by
  simpa [Nat.add_sub_cancel' past] using at1_append_right head rest (i - head.length)

@[simp] theorem at2_append_of_lt (rest : List Byte) (here : i + 1 < head.length) : at2 (head ++ rest) i = at2 head i := by
  rw [at2, at1_append_of_lt _ (by omega), at1_append_of_lt _ here, at2]

@[simp] theorem at2_append_of_le (rest : List Byte) (past : head.length ≤ i) :
    at2 (head ++ rest) i = at2 rest (i - head.length) := by
  rw [at2, at1_append_of_le _ past, at1_append_of_le _ (by omega), Nat.sub_add_comm past, at2]

@[simp] theorem at4_append_of_lt (rest : List Byte) (here : i + 3 < head.length) : at4 (head ++ rest) i = at4 head i := by
  rw [at4, at2_append_of_lt _ (by omega), at2_append_of_lt _ here, at4]

@[simp] theorem at4_append_of_le (rest : List Byte) (past : head.length ≤ i) :
    at4 (head ++ rest) i = at4 rest (i - head.length) := by
  rw [at4, at2_append_of_le _ past, at2_append_of_le _ (by omega), Nat.sub_add_comm past, at4]

theorem drop_append_past (rest : List Byte) (past : head.length ≤ i) : (head ++ rest).drop i = rest.drop (i - head.length) := by
  rw [List.drop_append, List.drop_of_length_le past, List.nil_append]

end Places

/-! ### Single fields -/

@[simp] theorem length_byte1 (n : Nat) : (byte1 n).length = 1 := by simp [byte1]

@[simp] theorem length_byte4 (n : Nat) : (byte4 n).length = 4 := by simp [byte4]

@[simp] theorem length_flag1 (x : Bool) : (flag1 x).length = 1 := by simp [flag1]

@[simp] theorem length_signed2 (z : Int) : (signed2 z).length = 2 := by simp [signed2]

@[simp] theorem at1_byte1 (n : Nat) : at1 (byte1 n) 0 = n % 256 := BitVec.toNat_ofNat _ _

@[simp] theorem at1_byte1_append (n : Nat) (rest : List Byte) : at1 (byte1 n ++ rest) 0 = n % 256 :=
  BitVec.toNat_ofNat _ _

@[simp] theorem at1_flag1_append (x : Bool) (rest : List Byte) : at1 (flag1 x ++ rest) 0 = if x then 1 else 0 := by
  cases x <;> rfl

@[simp] theorem at1_flag1 (x : Bool) : at1 (flag1 x) 0 = if x then 1 else 0 := by cases x <;> rfl

@[simp] theorem at2_byte2_mod (n : Nat) : at2 (byte2 n) 0 = n % 65536 := by
  have high : at1 (byte2 n) 0 = n / 256 % 256 := BitVec.toNat_ofNat _ _
  have low : at1 (byte2 n) 1 = n % 256 := BitVec.toNat_ofNat _ _
  rw [at2, high, low]
  omega

@[simp] theorem at2_byte2_append (n : Nat) (rest : List Byte) : at2 (byte2 n ++ rest) 0 = n % 65536 :=
  at2_byte2_mod n

@[simp] theorem at1_byte2_append (n : Nat) (rest : List Byte) (i : Nat) : at1 (byte2 n ++ rest) (i + 2) = at1 rest i := rfl

@[simp] theorem at2_byte2_append_past (n : Nat) (rest : List Byte) (i : Nat) :
    at2 (byte2 n ++ rest) (i + 2) = at2 rest i := rfl

@[simp] theorem at4_byte2_append (n : Nat) (rest : List Byte) (i : Nat) : at4 (byte2 n ++ rest) (i + 2) = at4 rest i := rfl

@[simp] theorem at4_byte4_mod (n : Nat) : at4 (byte4 n) 0 = n % 4294967296 := by
  have high : at2 (byte4 n) 0 = n / 65536 % 65536 := by
    rw [← at2_byte2_mod, byte2, Nat.div_div_eq_div_mul]
    rfl
  have low : at2 (byte4 n) 2 = n % 65536 := at2_byte2_mod n
  rw [at4, high, low]
  omega

@[simp] theorem at2_signed2 (z : Int) : (at2 (signed2 z) 0 : Int) = z % 65536 := by
  rw [signed2, at2_byte2_mod, Nat.mod_eq_of_lt (BitVec.isLt _), BitVec.toNat_ofInt]
  omega

/-- The bits packed into a byte make a number below the next power of 2. -/
theorem packBits_lt (bits : List Bool) : packBits bits < 2 ^ bits.length := by
  induction bits with
  | nil => decide
  | cons x bits ih =>
    rw [packBits, List.length_cons, pow_succ]
    have : boolCode x ≤ 1 := by cases x <;> decide
    omega

/-! ### Codes and indices fit a byte -/

@[simp] theorem Feedback.code_mod (x : Feedback) : Feedback.code x % 256 = Feedback.code x := by cases x <;> rfl

@[simp] theorem Valve.code_mod (x : Valve) : x.code % 256 = x.code := by cases x <;> rfl

@[simp] theorem LinkState.code_mod (x : LinkState) : x.code % 256 = x.code := by cases x <;> rfl

@[simp] theorem ZoneLevel.code_mod (x : ZoneLevel) : ZoneLevel.code x % 256 = ZoneLevel.code x := by cases x <;> rfl

@[simp] theorem BranchState.code_mod (x : BranchState) : x.code % 256 = x.code := by cases x <;> rfl

@[simp] theorem SuspectLevel.rank_mod (x : SuspectLevel) : x.rank % 256 = x.rank := by cases x <;> rfl

@[simp] theorem ZonePolicy.code_mod (x : ZonePolicy) : x.code % 256 = x.code := by cases x <;> rfl

@[simp] theorem SwitchPhase.code_mod (x : SwitchPhase) : x.code % 256 = x.code := by cases x <;> rfl

@[simp] theorem Requester.code_mod (x : Requester) : x.code % 256 = x.code := by cases x <;> rfl

@[simp] theorem LeasePhase.code_mod (x : LeasePhase) : x.code % 256 = x.code := by cases x <;> rfl

@[simp] theorem HandoverResult.code_mod (x : HandoverResult) : x.code % 256 = x.code := by cases x <;> rfl

@[simp] theorem Mode.code_mod (x : Mode) : x.code % 256 = x.code := by cases x <;> rfl

@[simp] theorem Timing.code_mod (x : Timing) : x.code % 256 = x.code := by cases x <;> rfl

@[simp] theorem Fit.code_mod (x : Fit) : x.code % 256 = x.code := by cases x <;> rfl

@[simp] theorem Kind.code_mod (x : Kind) : x.code % 256 = x.code := by cases x <;> rfl

@[simp] theorem SubPhase.code_mod (x : Option SubPhase) :
    orZero (x.map SubPhase.code) % 256 = (x.map SubPhase.code).getD 0 := by
  rcases x with _ | _ | _ <;> rfl

@[simp] theorem IsolationReason.code_mod (x : Option IsolationReason) :
    orZero (x.map IsolationReason.code) % 256 = (x.map IsolationReason.code).getD 0 := by
  rcases x with _ | x
  · rfl
  · cases x <;> rfl

theorem TtlPolicy.code_le (x : TtlPolicy) : x.code ≤ 2 := by cases x <;> decide

@[simp] theorem val_mod_byte {n : Nat} (small : n ≤ 256) (x : Fin n) : x.val % 256 = x.val :=
  Nat.mod_eq_of_lt (by omega)

@[simp] theorem slotTag_mod_byte (x : Option SlotTag) : orZero (x.map (·.val)) % 256 = (x.map (·.val)).getD 0 := by
  rcases x with _ | x
  · rfl
  · exact val_mod_byte (by decide) x

/-! ### The lengths of the records with optional parts -/

@[simp] theorem length_confirmBytes (c : Option ConfirmTimer) : (confirmBytes c).length = 3 := by cases c <;> simp [confirmBytes]

@[simp] theorem length_switchBytes (w : Option Switch) : (switchBytes w).length = 7 := by
  cases w <;> simp [switchBytes]

@[simp] theorem length_leaseBytes (l : Option Lease) : (leaseBytes l).length = 23 := by
  cases l <;> simp [leaseBytes]

@[simp] theorem length_handoverBytes (h : Option Handover) : (handoverBytes h).length = 7 := by
  cases h <;> simp [handoverBytes]

@[simp] theorem length_faultBytes (h : Option FaultHold) : (faultBytes h).length = 7 := by
  rcases h with _ | ⟨_ | _, _, _⟩ <;> simp [faultBytes]

@[simp] theorem length_freezeBytes (p : Params) (f : Option Freeze) : (freezeBytes p f).length = 3 := by
  cases f <;> simp [freezeBytes]

@[simp] theorem length_parkBytes (k : Option Park) : (parkBytes k).length = 5 := by
  cases k <;> simp [parkBytes]

@[simp] theorem length_entryRecord (b : BranchId) (e : MapEntry) : (entryRecord b e).length = 8 := by simp [entryRecord]

@[simp] theorem length_statusRecord (x : Branch) : (statusRecord x).length = 17 := by simp [statusRecord]

@[simp] theorem length_measureRecord (m : Measurement) : (measureRecord m).length = 9 := by simp [measureRecord, temperatureBytes]

@[simp] theorem length_dripRecord (a : Accumulator) : (dripRecord a).length = 5 := by simp [dripRecord]

@[simp] theorem length_planBytes (e : PlanEntry) : (planBytes e).length = 7 := by simp [planBytes]

@[simp] theorem length_zoneRecord (z : Zone) : (zoneRecord z).length = 7 := by simp [zoneRecord]

@[simp] theorem length_feedRecord (f : FeedRecord) : (feedRecord f).length = 6 := by simp [feedRecord]

@[simp] theorem length_summaryBytes (c : CycleSummary) : (summaryBytes c).length = 35 := by simp [summaryBytes]

@[simp] theorem length_incidentRecord (r : Incident) : (incidentRecord r).length = 17 := by simp [incidentRecord]

end Sys2Proof.Machine

/-! The answer records, field by field (R187 to R189). -/

namespace Sys2Proof.Machine

open Sys2Proof

/-! ### READ_BRANCH -/

theorem entryRecord_laidOut (b : BranchId) (e : MapEntry) :
    at1 (entryRecord b e) 0 = b.val ∧
      at1 (entryRecord b e) 1 = boolCode e.slotTag.isSome + 2 * boolCode e.autoAdmit +
        4 * boolCode (decide (e.authority = .safetyOrRack)) + 8 * e.ttlPolicy.code ∧
      at1 (entryRecord b e) 2 = (e.slotTag.map (·.val)).getD 0 ∧ at1 (entryRecord b e) 3 = e.gain % 256 ∧
      at2 (entryRecord b e) 4 = e.primePosition % 65536 ∧ at2 (entryRecord b e) 6 = e.ttlTime % 65536 := by
  have few := packBits_lt [e.slotTag.isSome, e.autoAdmit, decide (e.authority = .safetyOrRack)]
  have policy := e.ttlPolicy.code_le
  refine ⟨?_, ?_, ?_, ?_, ?_, ?_⟩
  · simp [entryRecord]
  · simp only [entryRecord, List.append_assoc]
    rw [at1_append_of_le _ (by simp), at1_append_of_lt _ (by simp)]
    refine (at1_byte1 _).trans ((Nat.mod_eq_of_lt (by simp at few; omega)).trans ?_)
    simp only [packBits]
    omega
  all_goals simp [entryRecord]

theorem statusRecord_laidOut (x : Branch) :
    at1 (statusRecord x) 0 = x.state.code ∧ at1 (statusRecord x) 1 = x.attempts % 256 ∧
      at1 (statusRecord x) 2 = x.proof % 256 ∧
      at1 (statusRecord x) 3 = boolCode x.timer.isSome + 2 * boolCode x.ttl.isSome + 4 * boolCode x.pin.isSome +
        8 * boolCode x.target.isSome + 16 * boolCode x.reason.isSome + 32 * boolCode x.isolationMark + 64 * boolCode x.hot ∧
      at2 (statusRecord x) 4 = stepsOrZero x.timer % 65536 ∧ at2 (statusRecord x) 6 = stepsOrZero x.ttl % 65536 ∧
      at2 (statusRecord x) 8 = x.pin.getD 0 % 65536 ∧ at2 (statusRecord x) 10 = x.target.getD 0 % 65536 ∧
      at2 (statusRecord x) 12 = x.supply % 65536 ∧ at1 (statusRecord x) 14 = x.ret.code ∧
      at1 (statusRecord x) 15 = (x.subPhase.map SubPhase.code).getD 0 ∧
      at1 (statusRecord x) 16 = (x.reason.map IsolationReason.code).getD 0 := by
  have few := packBits_lt [x.timer.isSome, x.ttl.isSome, x.pin.isSome, x.target.isSome, x.reason.isSome, x.isolationMark, x.hot]
  refine ⟨?_, ?_, ?_, ?_, ?_, ?_, ?_, ?_, ?_, ?_, ?_, ?_⟩
  case refine_4 =>
    simp only [statusRecord, List.append_assoc]
    rw [at1_append_of_le _ (by simp), at1_append_of_le _ (by simp), at1_append_of_le _ (by simp), at1_append_of_lt _ (by simp)]
    refine (at1_byte1 _).trans ((Nat.mod_eq_of_lt (by simp at few; omega)).trans ?_)
    simp only [packBits]
    omega
  all_goals simp [statusRecord]
  all_goals rfl

theorem measureRecord_laidOut (m : Measurement) :
    at2 (measureRecord m) 0 = m.supplyFlow % 65536 ∧ at2 (measureRecord m) 2 = m.returnFlow % 65536 ∧
      at2 (measureRecord m) 4 = m.temperature.getD 65535 % 65536 ∧ at2 (measureRecord m) 6 = m.supplyFeedback % 65536 ∧
      at1 (measureRecord m) 8 = Feedback.code m.returnFeedback := by
  simp [measureRecord, temperatureBytes]

theorem dripRecord_laidOut (a : Accumulator) :
    at2 (dripRecord a) 0 = a.amount % 65536 ∧ at1 (dripRecord a) 2 = a.level.rank ∧
      (at2 (dripRecord a) 3 : Int) = a.lastImbalance % 65536 := by
  simp [dripRecord]

theorem planBytes_laidOut (e : PlanEntry) :
    at2 (planBytes e) 0 = e.demand % 65536 ∧ at2 (planBytes e) 2 = e.floor % 65536 ∧ at2 (planBytes e) 4 = e.cap % 65536 ∧
      at1 (planBytes e) 6 = e.weight % 256 := by
  simp [planBytes]

theorem branchRecord_laidOut (s : State) (b : BranchId) :
    let r := branchRecord s b
    let x := s.branch b
    let e := s.entry b
    at1 r 0 = b.val ∧
    at1 r 1 = boolCode e.slotTag.isSome + 2 * boolCode e.autoAdmit + 4 * boolCode (decide (e.authority = .safetyOrRack)) +
      8 * e.ttlPolicy.code ∧
    at1 r 2 = (e.slotTag.map (·.val)).getD 0 ∧ at1 r 3 = e.gain % 256 ∧ at2 r 4 = e.primePosition % 65536 ∧
    at2 r 6 = e.ttlTime % 65536 ∧ at1 r 8 = x.state.code ∧ at1 r 9 = x.attempts % 256 ∧ at1 r 10 = x.proof % 256 ∧
    at1 r 11 = boolCode x.timer.isSome + 2 * boolCode x.ttl.isSome + 4 * boolCode x.pin.isSome +
      8 * boolCode x.target.isSome + 16 * boolCode x.reason.isSome + 32 * boolCode x.isolationMark + 64 * boolCode x.hot ∧
    at2 r 12 = stepsOrZero x.timer % 65536 ∧ at2 r 14 = stepsOrZero x.ttl % 65536 ∧ at2 r 16 = x.pin.getD 0 % 65536 ∧
    at2 r 18 = x.target.getD 0 % 65536 ∧ at2 r 20 = x.supply % 65536 ∧ at1 r 22 = x.ret.code ∧
    at1 r 23 = (x.subPhase.map SubPhase.code).getD 0 ∧ at1 r 24 = (x.reason.map IsolationReason.code).getD 0 ∧
    at2 r 25 = (s.measure b).supplyFlow % 65536 ∧ at2 r 27 = (s.measure b).returnFlow % 65536 ∧
    at2 r 29 = (s.measure b).temperature.getD 65535 % 65536 ∧ at2 r 31 = (s.measure b).supplyFeedback % 65536 ∧
    at1 r 33 = Feedback.code (s.measure b).returnFeedback ∧ at1 r 34 = (s.segment (zoneOf b)).link.code ∧
    at2 r 35 = (s.drip b).amount % 65536 ∧ at1 r 37 = (s.drip b).level.rank ∧
    (at2 r 38 : Int) = (s.drip b).lastImbalance % 65536 := by
  simp [branchRecord, entryRecord_laidOut, statusRecord_laidOut, measureRecord_laidOut, dripRecord_laidOut]

/-! ### READ_PLAN and READ_SEGMENT -/

theorem planRecord_laidOut (s : State) (b : BranchId) :
    let r := planRecord s b
    let p := s.pendingPlan b
    let a := s.activePlan b
    at1 r 0 = b.val ∧ at1 r 1 = (s.branch b).state.code ∧ at2 r 2 = p.demand % 65536 ∧ at2 r 4 = p.floor % 65536 ∧
      at2 r 6 = p.cap % 65536 ∧ at1 r 8 = p.weight % 256 ∧ at2 r 9 = a.demand % 65536 ∧ at2 r 11 = a.floor % 65536 ∧
      at2 r 13 = a.cap % 65536 ∧ at1 r 15 = a.weight % 256 := by
  simp [planRecord, planBytes_laidOut]

theorem length_measures (s : State) (z : SegId) :
    ((zoneBranches z).flatMap fun b => measureRecord (s.measure b)).length = 27 := by
  simp [zoneBranches]

/-- The measurements of a segment's branches stand in its answer in ascending index. -/
theorem standsAt_measureRecord (s : State) (z : SegId) (i : Fin 3) :
    StandsAt (segmentAnswer s z) (4 + 9 * i.val) (measureRecord (s.measure (branchAt z i))) := by
  have listed : (zoneBranches z)[i.val]? = some (branchAt z i) := by
    fin_cases i <;> rfl
  have own := (StandsAt.flatMap (f := fun b => measureRecord (s.measure b)) (fun _ => length_measureRecord _) listed).append_right
    (byte1 z.val ++ byte1 (s.segment z).link.code ++ byte1 (s.segment z).misses ++
      byte1 (ZoneLevel.code (s.segment z).lastLevel))
  refine own.append_left ?_ _
  simp only [List.length_append, length_measures, length_measureRecord, length_byte1]
  omega

theorem segmentAnswer_measures (s : State) (z : SegId) (i : Fin 3) :
    let r := segmentAnswer s z
    let m := s.measure (branchAt z i)
    let o := 4 + 9 * i.val
    at2 r o = m.supplyFlow % 65536 ∧ at2 r (o + 2) = m.returnFlow % 65536 ∧
      at2 r (o + 4) = m.temperature.getD 65535 % 65536 ∧ at2 r (o + 6) = m.supplyFeedback % 65536 ∧
      at1 r (o + 8) = Feedback.code m.returnFeedback := by
  have stands := standsAt_measureRecord s z i
  obtain ⟨supplyFlow, returnFlow, temperature, supplyFeedback, returnFeedback⟩ :=
    measureRecord_laidOut (s.measure (branchAt z i))
  exact ⟨(at2_of_standsAt stands 0 (by simp)).trans supplyFlow, (at2_of_standsAt stands 2 (by simp)).trans returnFlow,
    (at2_of_standsAt stands 4 (by simp)).trans temperature, (at2_of_standsAt stands 6 (by simp)).trans supplyFeedback,
    (stands 8 (by simp)).trans returnFeedback⟩

theorem confirmBytes_some (c : ConfirmTimer) :
    at1 (confirmBytes (some c)) 0 = (if c.running then 1 else 2) ∧
      at2 (confirmBytes (some c)) 1 = c.remaining.steps % 65536 := by
  rcases c with ⟨_, _ | _⟩ <;> simp [confirmBytes]

theorem segmentAnswer_laidOut (s : State) (z : SegId) :
    let r := segmentAnswer s z
    let x := s.zone z
    at1 r 0 = z.val ∧ at1 r 1 = (s.segment z).link.code ∧ at1 r 2 = (s.segment z).misses % 256 ∧
      at1 r 3 = ZoneLevel.code (s.segment z).lastLevel ∧
      at1 r 31 = ZoneLevel.code x.state ∧ at1 r 32 = x.rise % 256 ∧ at1 r 33 = x.dry % 256 ∧
      at1 r 34 = at1 (confirmBytes x.confirm) 0 ∧ at2 r 35 = at2 (confirmBytes x.confirm) 1 ∧ at1 r 37 = x.policy.code := by
  simp [segmentAnswer, zoneRecord, length_measures, -List.length_flatMap]

/-! ### READ_FEEDS -/

theorem feedRecord_laidOut (f : FeedRecord) :
    at1 (feedRecord f) 0 = f.inlet.code ∧ at1 (feedRecord f) 1 = boolCode f.failed ∧
      at1 (feedRecord f) 2 = boolCode f.lowTimer.isSome ∧ at2 (feedRecord f) 3 = stepsOrZero f.lowTimer % 65536 ∧
      at1 (feedRecord f) 5 = f.proof % 256 := by
  simp [feedRecord, boolCode]

theorem feedsAnswer_feed (s : State) (f : Feed) :
    let r := feedsAnswer s
    let o := 6 * f.idx.val
    at1 r o = (s.feed f).inlet.code ∧ at1 r (o + 1) = boolCode (s.feed f).failed ∧
      at1 r (o + 2) = boolCode (s.feed f).lowTimer.isSome ∧ at2 r (o + 3) = stepsOrZero (s.feed f).lowTimer % 65536 ∧
      at1 r (o + 5) = (s.feed f).proof % 256 := by
  cases f <;> simp [feedsAnswer, Feed.idx, feedRecord_laidOut]

theorem switchBytes_some (w : Switch) :
    at1 (switchBytes (some w)) 0 = 1 ∧ at1 (switchBytes (some w)) 1 = w.target.idx.val ∧
      at1 (switchBytes (some w)) 2 = w.origin.idx.val ∧ at1 (switchBytes (some w)) 3 = w.phase.code ∧
      at2 (switchBytes (some w)) 4 = w.window.steps % 65536 ∧ at1 (switchBytes (some w)) 6 = w.requester.code := by
  simp [switchBytes]

theorem feedsAnswer_laidOut (s : State) :
    let r := feedsAnswer s
    at1 r 12 = s.activeFeed.idx.val ∧ (r.drop 13).take 7 = switchBytes s.switch ∧
      at1 r 13 = at1 (switchBytes s.switch) 0 ∧ at1 r 14 = at1 (switchBytes s.switch) 1 ∧
      at1 r 15 = at1 (switchBytes s.switch) 2 ∧ at1 r 16 = at1 (switchBytes s.switch) 3 ∧
      at2 r 17 = at2 (switchBytes s.switch) 4 ∧ at1 r 19 = at1 (switchBytes s.switch) 6 ∧
      at1 r 20 = boolCode s.startup.isSome ∧ at2 r 21 = stepsOrZero s.startup % 65536 ∧ at1 r 23 = boolCode s.bothOpen ∧
      at1 r 24 = boolCode s.feedLock ∧ at1 r 25 = boolCode s.params.failoverEnable ∧
      at2 r 26 = s.params.proofPressure % 65536 ∧ at2 r 28 = s.params.failPressure % 65536 ∧
      at2 r 30 = s.head.pressureA % 65536 ∧ at2 r 32 = s.head.pressureB % 65536 ∧
      at1 r 34 = Feedback.code s.head.inletA ∧ at1 r 35 = Feedback.code s.head.inletB ∧ at1 r 36 = s.head.link.code ∧
      at1 r 37 = s.head.misses % 256 := by
  simp [feedsAnswer, boolCode, drop_append_past]

/-! ### READ_LEASES -/

theorem leaseBytes_some (l : Lease) :
    at1 (leaseBytes (some l)) 0 = l.phase.code ∧ at2 (leaseBytes (some l)) 1 = l.budget % 65536 ∧
      at4 (leaseBytes (some l)) 3 = l.duration % 4294967296 ∧ at4 (leaseBytes (some l)) 7 = l.t1 % 4294967296 ∧
      at4 (leaseBytes (some l)) 11 = l.t2 % 4294967296 ∧ at4 (leaseBytes (some l)) 15 = l.age.steps % 4294967296 ∧
      at4 (leaseBytes (some l)) 19 = l.toNextMark % 4294967296 := by
  simp [leaseBytes]

/-- The record of a feed's lease stands in the answer whole. -/
theorem standsAt_leaseBytes (s : State) (f : Feed) :
    StandsAt (leasesAnswer s) (23 * f.idx.val) (leaseBytes (s.lease f)) := by
  intro i within
  rw [length_leaseBytes] at within
  cases f with
  | a => simp [leasesAnswer, Feed.idx, within]
  | b => simp [leasesAnswer, Feed.idx, within]

theorem leasesAnswer_drop (s : State) (f : Feed) :
    ((leasesAnswer s).drop (23 * f.idx.val)).take 23 = leaseBytes (s.lease f) := by
  cases f <;> simp [leasesAnswer, Feed.idx]

theorem handoverBytes_some (h : Handover) :
    at1 (handoverBytes (some h)) 0 = 1 ∧ at1 (handoverBytes (some h)) 1 = h.feed.idx.val ∧
      at4 (handoverBytes (some h)) 2 = h.uptime % 4294967296 ∧ at1 (handoverBytes (some h)) 6 = h.result.code := by
  simp [handoverBytes]

theorem leasesAnswer_laidOut (s : State) :
    let r := leasesAnswer s
    at1 r 46 = s.activeFeed.idx.val ∧ at1 r 47 = boolCode (budgetInForce s).isSome ∧
      at2 r 48 = (budgetInForce s).getD 0 % 65536 ∧ at1 r 50 = boolCode s.params.autoHandover ∧
      at1 r 51 = at1 (handoverBytes s.handover) 0 ∧
      at1 r 52 = at1 (handoverBytes s.handover) 1 ∧ at4 r 53 = at4 (handoverBytes s.handover) 2 ∧
      at1 r 57 = at1 (handoverBytes s.handover) 6 := by
  simp [leasesAnswer, boolCode, orZero]

theorem leasesAnswer_handover (s : State) : ((leasesAnswer s).drop 51).take 7 = handoverBytes s.handover := by
  rw [leasesAnswer, List.drop_left' (by simp), List.take_of_length_le (by simp)]

/-! ### READ_INCIDENTS -/

theorem incidentRecord_laidOut (i : Incident) :
    at2 (incidentRecord i) 0 = i.sequence % 65536 ∧ at1 (incidentRecord i) 2 = i.kind.code ∧
      at1 (incidentRecord i) 3 = (subjectBytes i.subject).1 + 8 * boolCode i.detail.isSome ∧
      at1 (incidentRecord i) 4 = (subjectBytes i.subject).2 ∧ at4 (incidentRecord i) 5 = i.firstTime % 4294967296 ∧
      at4 (incidentRecord i) 9 = i.lastTime % 4294967296 ∧ at2 (incidentRecord i) 13 = i.count % 65536 ∧
      (at2 (incidentRecord i) 15 : Int) = i.detail.getD 0 % 65536 := by
  have bits : ((subjectBytes i.subject).1 + 8 * boolCode i.detail.isSome) % 256 =
      (subjectBytes i.subject).1 + 8 * boolCode i.detail.isSome := by
    cases i.subject <;> cases i.detail <;> rfl
  have index : (subjectBytes i.subject).2 % 256 = (subjectBytes i.subject).2 := by
    cases i.subject <;> simp [subjectBytes]
  simp [incidentRecord, bits, index]

theorem length_incidentsAnswer (s : State) (start : Nat) :
    (incidentsAnswer s start).length = 4 + 17 * min 4 (s.incidents.records.length - start) := by
  simp [incidentsAnswer, length_flatMap_const _ length_incidentRecord]
  omega

theorem incidentsAnswer_head (s : State) (start : Nat) :
    at1 (incidentsAnswer s start) 0 = s.incidents.records.length % 256 ∧
      at1 (incidentsAnswer s start) 1 = s.incidents.overflow % 256 ∧
      at2 (incidentsAnswer s start) 2 = s.incidents.next % 65536 := by
  simp [incidentsAnswer]

theorem standsAt_incidentRecord {s : State} {start : Nat} {k : Fin 4} {i : Incident}
    (present : s.incidents.records[start + k.val]? = some i) :
    StandsAt (incidentsAnswer s start) (4 + 17 * k.val) (incidentRecord i) := by
  have listed : ((s.incidents.records.drop start).take 4)[k.val]? = some i := by
    rw [List.getElem?_take_of_lt k.isLt, List.getElem?_drop, present]
  exact (StandsAt.flatMap length_incidentRecord listed).append_right
    (byte1 s.incidents.records.length ++ byte1 s.incidents.overflow ++ byte2 s.incidents.next)

/-! ### READ_STATUS -/

theorem faultBytes_some (h : FaultHold) :
    at1 (faultBytes (some h)) 0 = (match h.first with
        | .isolateFault _ => 1
        | .bothFeedsFailed => 2) ∧
      at1 (faultBytes (some h)) 1 = (match h.first with
        | .isolateFault b => b.val
        | .bothFeedsFailed => 0) ∧
      at1 (faultBytes (some h)) 2 = h.count % 256 ∧ at4 (faultBytes (some h)) 3 = h.began % 4294967296 := by
  rcases h with ⟨_ | _, _, _⟩ <;> simp [faultBytes]

theorem freezeBytes_some (p : Params) (f : Freeze) :
    at1 (freezeBytes p (some f)) 0 = (match f.holder with
        | .rm => 1
        | .sp => 2) ∧
      at2 (freezeBytes p (some f)) 1 = (p.freezeLimit - f.age.steps) % 65536 := by
  rcases f with ⟨_ | _, _⟩ <;> simp [freezeBytes]

theorem parkBytes_some (k : Park) :
    at1 (parkBytes (some k)) 0 = 1 ∧ at2 (parkBytes (some k)) 1 = k.window.steps % 65536 ∧
      at2 (parkBytes (some k)) 3 = k.confirmed.toNat := by
  have := k.confirmed.isLt
  simp [parkBytes]
  omega

/-- The four numbers of the budget stand in the summary; zeros where no budget was in force. -/
theorem summaryBytes_budget (c : CycleSummary) :
    (c.budget = none → ((summaryBytes c).drop 8).take 10 = List.replicate 10 0) ∧
      ∀ g ∈ c.budget, at2 (summaryBytes c) 8 = g.inForce % 65536 ∧ at2 (summaryBytes c) 10 = g.primingReserve % 65536 ∧
        at4 (summaryBytes c) 12 = g.pinnedConsumption % 4294967296 ∧ at2 (summaryBytes c) 16 = g.available % 65536 := by
  refine ⟨fun absent => ?_, fun g present => ?_⟩
  · rw [summaryBytes, absent]
    rfl
  · simp [summaryBytes, orZero, Option.mem_def.mp present]

theorem summaryBytes_laidOut (c : CycleSummary) :
    at1 (summaryBytes c) 0 = boolCode c.cycleTime.isSome + 2 * boolCode c.budget.isSome ∧
      at4 (summaryBytes c) 1 = c.cycleTime.getD 0 % 4294967296 ∧
      at1 (summaryBytes c) 5 = c.mode.code ∧ at1 (summaryBytes c) 6 = c.feed.idx.val ∧ at1 (summaryBytes c) 7 = c.fit.code ∧
      at1 (summaryBytes c) 18 = c.allotting % 256 ∧ at1 (summaryBytes c) 19 = c.priming % 256 ∧
      at1 (summaryBytes c) 20 = c.pinned % 256 ∧ at4 (summaryBytes c) 21 = c.demand % 4294967296 ∧
      at4 (summaryBytes c) 25 = c.floors % 4294967296 ∧ at4 (summaryBytes c) 29 = c.targets % 4294967296 ∧
      at1 (summaryBytes c) 33 = c.passes % 256 ∧ at1 (summaryBytes c) 34 = c.hotBranches % 256 := by
  have bits : packBits [c.cycleTime.isSome, c.budget.isSome] % 256 =
      boolCode c.cycleTime.isSome + 2 * boolCode c.budget.isSome := by
    cases c.cycleTime <;> cases c.budget <;> rfl
  simp [summaryBytes, bits, orZero]

end Sys2Proof.Machine

/-! The answers as a whole: the status answer, and every answer's layout (R187 to R189). -/

namespace Sys2Proof.Machine

open Sys2Proof

/-! ### READ_STATUS -/

theorem statusAnswer_head (s : State) :
    let r := statusAnswer s
    at4 r 0 = s.uptime % 4294967296 ∧ at1 r 4 = s.mode.code ∧ at1 r 20 = s.params.cycleMode.code ∧
      at1 r 21 = s.timer.timing.code ∧ at1 r 22 = s.timer.lockIn % 256 ∧ at2 r 23 = s.timer.interval.getD 0 % 65536 ∧
      at1 r 25 = s.activeFeed.idx.val ∧ at1 r 61 = boolCode s.store.save.isSome ∧
      at1 r 62 = s.store.queue.length % 256 := by
  simp [statusAnswer, boolCode, orZero]

theorem statusAnswer_fault (s : State) :
    let r := statusAnswer s
    let x := faultBytes s.faultHold
    (r.drop 5).take 7 = x ∧ at1 r 5 = at1 x 0 ∧ at1 r 6 = at1 x 1 ∧ at1 r 7 = at1 x 2 ∧ at4 r 8 = at4 x 3 := by
  simp [statusAnswer, drop_append_past]

theorem statusAnswer_freeze (s : State) :
    let r := statusAnswer s
    let x := freezeBytes s.params s.freeze
    (r.drop 12).take 3 = x ∧ at1 r 12 = at1 x 0 ∧ at2 r 13 = at2 x 1 := by
  simp [statusAnswer, drop_append_past]

theorem statusAnswer_park (s : State) :
    let r := statusAnswer s
    let x := parkBytes s.park
    (r.drop 15).take 5 = x ∧ at1 r 15 = at1 x 0 ∧ at2 r 16 = at2 x 1 ∧ at2 r 18 = at2 x 3 := by
  simp [statusAnswer, drop_append_past]

/-- The cycle summary stands in the answer whole from byte 26 on. -/
theorem statusAnswer_drop (s : State) :
    (statusAnswer s).drop 26 = summaryBytes s.summary ++ (flag1 s.store.save.isSome ++ byte1 s.store.queue.length) := by
  rw [statusAnswer, List.append_assoc, List.append_assoc]
  exact List.drop_left' (by simp)

theorem at1_drop (bytes : List Byte) (n i : Nat) : at1 (bytes.drop n) i = at1 bytes (n + i) := by
  simp [at1]

theorem standsAt_summaryBytes (s : State) : StandsAt (statusAnswer s) 26 (summaryBytes s.summary) := fun i within => by
  rw [← at1_drop, statusAnswer_drop, at1_append_of_lt _ within]

theorem statusAnswer_noBudget {s : State} (absent : s.summary.budget = none) :
    ((statusAnswer s).drop 34).take 10 = List.replicate 10 0 := by
  have zeros := (summaryBytes_budget s.summary).1 absent
  rw [show 34 = 26 + 8 from rfl, ← List.drop_drop, statusAnswer_drop, List.drop_append_of_le_length (by simp),
    List.take_append_of_le_length (by simp), zeros]

theorem statusAnswer_budget {s : State} {g : BudgetFields} (present : g ∈ s.summary.budget) :
    let r := statusAnswer s
    at2 r 34 = g.inForce % 65536 ∧ at2 r 36 = g.primingReserve % 65536 ∧
      at4 r 38 = g.pinnedConsumption % 4294967296 ∧ at2 r 42 = g.available % 65536 := by
  have stands := standsAt_summaryBytes s
  obtain ⟨inForce, primingReserve, pinned, available⟩ := (summaryBytes_budget s.summary).2 g present
  exact ⟨(at2_of_standsAt stands 8 (by simp)).trans inForce, (at2_of_standsAt stands 10 (by simp)).trans primingReserve,
    (at4_of_standsAt stands 12 (by simp)).trans pinned, (at2_of_standsAt stands 16 (by simp)).trans available⟩

theorem statusAnswer_summary (s : State) :
    let r := statusAnswer s
    let c := s.summary
    at1 r 26 = boolCode c.cycleTime.isSome + 2 * boolCode c.budget.isSome ∧ at4 r 27 = c.cycleTime.getD 0 % 4294967296 ∧
      at1 r 31 = c.mode.code ∧ at1 r 32 = c.feed.idx.val ∧ at1 r 33 = c.fit.code ∧
      at1 r 44 = c.allotting % 256 ∧ at1 r 45 = c.priming % 256 ∧ at1 r 46 = c.pinned % 256 ∧
      at4 r 47 = c.demand % 4294967296 ∧ at4 r 51 = c.floors % 4294967296 ∧ at4 r 55 = c.targets % 4294967296 ∧
      at1 r 59 = c.passes % 256 ∧ at1 r 60 = c.hotBranches % 256 := by
  have stands := standsAt_summaryBytes s
  obtain ⟨bits, time, mode, feed, fit, allotting, priming, pinned, demand, floors, targets, passes, hot⟩ :=
    summaryBytes_laidOut s.summary
  exact ⟨(stands 0 (by simp)).trans bits, (at4_of_standsAt stands 1 (by simp)).trans time, (stands 5 (by simp)).trans mode,
    (stands 6 (by simp)).trans feed, (stands 7 (by simp)).trans fit, (stands 18 (by simp)).trans allotting,
    (stands 19 (by simp)).trans priming, (stands 20 (by simp)).trans pinned,
    (at4_of_standsAt stands 21 (by simp)).trans demand, (at4_of_standsAt stands 25 (by simp)).trans floors,
    (at4_of_standsAt stands 29 (by simp)).trans targets, (stands 33 (by simp)).trans passes, (stands 34 (by simp)).trans hot⟩

theorem answers_lengths (s : State) :
    (statusAnswer s).length = 63 ∧ (∀ b, (branchRecord s b).length = 40) ∧ (∀ b, (planRecord s b).length = 16) ∧
      (∀ z, (segmentAnswer s z).length = 38) ∧ (feedsAnswer s).length = 38 ∧ (leasesAnswer s).length = 58 ∧
      ∀ start, (incidentsAnswer s start).length = 4 + 17 * min 4 (s.incidents.records.length - start) := by
  refine ⟨?_, fun b => ?_, fun b => ?_, fun z => ?_, ?_, ?_, length_incidentsAnswer s⟩
  · simp [statusAnswer]
  · simp [branchRecord]
  · simp [planRecord]
  · simp [segmentAnswer, length_measures, -List.length_flatMap]
  · simp [feedsAnswer]
  · simp [leasesAnswer]

/-- Settles O9: answer by answer from the layouts of its blocks. -/
theorem answersAreLaidOut : Obligations.AnswersAreLaidOut := by
  unfold Obligations.AnswersAreLaidOut
  intro bit steps
  refine ⟨answers_lengths, branchRecord_laidOut, planRecord_laidOut, fun s z => ?_, fun s => ?_, fun s => ?_,
    fun s start => ?_, fun s => ?_, ?_⟩
  · obtain ⟨index, link, misses, level, state, rise, dry, confirm, remaining, policy⟩ := segmentAnswer_laidOut s z
    refine ⟨index, link, misses, level, segmentAnswer_measures s z, state, rise, dry, fun absent => ?_, fun c present => ?_,
      policy⟩
    · rw [confirm, remaining, absent]
      exact ⟨rfl, rfl⟩
    · rw [confirm, remaining, Option.mem_def.mp present]
      exact confirmBytes_some c
  · obtain ⟨active, whole, w0, w1, w2, w3, w4, w6, rest⟩ := feedsAnswer_laidOut s
    refine ⟨feedsAnswer_feed s, active, fun absent => ?_, fun w present => ?_, rest⟩
    · rw [whole, absent]
      rfl
    · rw [w0, w1, w2, w3, w4, w6, Option.mem_def.mp present]
      exact switchBytes_some w
  · obtain ⟨active, inForce, budget, auto, h0, h1, h2, h6⟩ := leasesAnswer_laidOut s
    refine ⟨fun f => ⟨fun absent => ?_, fun l present => ?_⟩, active, inForce, budget, auto, fun absent => ?_,
      fun h present => ?_⟩
    · rw [leasesAnswer_drop, absent]
      rfl
    · have stands := standsAt_leaseBytes s f
      rw [Option.mem_def.mp present] at stands
      obtain ⟨phase, budget, duration, t1, t2, age, next⟩ := leaseBytes_some l
      exact ⟨(stands 0 (by simp)).trans phase, (at2_of_standsAt stands 1 (by simp)).trans budget,
        (at4_of_standsAt stands 3 (by simp)).trans duration, (at4_of_standsAt stands 7 (by simp)).trans t1,
        (at4_of_standsAt stands 11 (by simp)).trans t2, (at4_of_standsAt stands 15 (by simp)).trans age,
        (at4_of_standsAt stands 19 (by simp)).trans next⟩
    · rw [leasesAnswer_handover, absent]
      rfl
    · rw [h0, h1, h2, h6, Option.mem_def.mp present]
      exact handoverBytes_some h
  · obtain ⟨count, overflow, next⟩ := incidentsAnswer_head s start
    refine ⟨count, overflow, next, fun k i present => ?_⟩
    have stands := standsAt_incidentRecord present
    obtain ⟨sequence, kind, bits, subject, first, last, count, detail⟩ := incidentRecord_laidOut i
    refine ⟨(at2_of_standsAt stands 0 (by simp)).trans sequence, (stands 2 (by simp)).trans kind,
      (stands 3 (by simp)).trans (bits.trans ?_), (stands 4 (by simp)).trans (subject.trans ?_),
      (at4_of_standsAt stands 5 (by simp)).trans first, (at4_of_standsAt stands 9 (by simp)).trans last,
      (at2_of_standsAt stands 13 (by simp)).trans count, ?_⟩
    · cases i.subject <;> rfl
    · cases i.subject <;> rfl
    · rw [at2_of_standsAt stands 15 (by simp), detail]
  · obtain ⟨uptime, mode, cycleMode, timing, lockIn, interval, active, save, queue⟩ := statusAnswer_head s
    obtain ⟨faultWhole, f0, f1, f2, f3⟩ := statusAnswer_fault s
    obtain ⟨freezeWhole, z0, z1⟩ := statusAnswer_freeze s
    obtain ⟨parkWhole, p0, p1, p3⟩ := statusAnswer_park s
    obtain ⟨present, time, cycleMode', feed, fit, counts⟩ := statusAnswer_summary s
    obtain ⟨allotting, priming, pinned, demand, floors, targets, passes, hot⟩ := counts
    refine ⟨uptime, mode, fun absent => ?_, fun h held => ?_, fun absent => ?_, fun f frozen => ?_, fun absent => ?_,
      fun k parked => ?_, cycleMode, timing, lockIn, interval, active, present, time, cycleMode', feed, fit,
      statusAnswer_noBudget, fun g inForce => statusAnswer_budget inForce, allotting, priming, pinned, demand, floors,
      targets, passes, hot, save, queue⟩
    · rw [faultWhole, absent]
      rfl
    · rw [f0, f1, f2, f3, Option.mem_def.mp held]
      exact faultBytes_some h
    · rw [freezeWhole, absent]
      rfl
    · rw [z0, z1, Option.mem_def.mp frozen]
      exact freezeBytes_some s.params f
    · rw [parkWhole, absent]
      rfl
    · rw [p0, p1, p3, Option.mem_def.mp parked]
      exact parkBytes_some k
  · exact ⟨rfl, rfl, rfl, rfl, rfl, rfl, rfl, rfl, rfl, rfl, rfl, rfl, rfl, rfl, rfl, rfl, rfl, rfl, rfl⟩

end Sys2Proof.Machine

/-! The warm reset: what takes it, and what its completion restarts and keeps (R195). -/

namespace Sys2Proof.Machine

open Sys2Proof

/-! ### The commands -/

theorem exec_restart {s : State} (ready : Ready s .rm) :
    exec (.restart .rm []) s = .next (State.answering { s with restartDue := true } .rm 0x41 { status := .ok, body := [] }) :=
  request_accepted (lengths := [0]) (allowed := [.rm]) (body := []) (h := restartRequest) ready (by decide) (by decide) rfl

theorem exec_restartReset {s : State} (after : Nat) (runs : s.running = true) :
    exec (.restartReset after) s = .next (restartNow (s.elapse after)) := event_taken runs

theorem exec_resetNAssert (after : Nat) (s : State) : exec (.resetNAssert after) s = .next (lowerReset (s.elapse after)) := rfl

theorem exec_resetNRelease (after : Nat) (s : State) : exec (.resetNRelease after) s = .next (raiseReset (s.elapse after)) := rfl

section Reset

variable (s : State)

/-! ### The records that restart -/

/-- A warm reset closes the inlet of a switch in OPENING, and leaves the other inlets alone (R136). -/
theorem dropSwitch_inlet (f : Feed) : ((dropSwitch s).feed f).inlet =
    if ∃ w, s.switch = some w ∧ w.phase = .opening ∧ w.target = f then .closed else (s.feed f).inlet := by
  unfold dropSwitch
  cases flying : s.switch with
  | none => simp
  | some w =>
    dsimp only
    split
    · rename_i opening
      rw [cancelSwitch]
      change ((s.setInlet w.target .closed).feed f).inlet = _
      rw [State.setInlet, State.setFeed_feed]
      by_cases own : f = w.target <;> simp_all [eq_comm]
    · rename_i closing
      simp [closing]
      rfl

theorem restartRecords_eq : restartRecords s = { s with
    measured := Vector.replicate 48 Measurement.cleared, segments := Vector.replicate 16 SegmentRecord.cleared
    head := HeadRecord.cleared, scanner := { s.scanner with number := 0 }
    timer := CycleTimer.restarted s.clock, summary := CycleSummary.cleared s.activeFeed, switch := none
    feeds := mapTable (fun _ => FeedRecord.restart) (dropSwitch s).feeds
    startup := s.startup.map fun _ => Timer.start s.params.switchWindow
    branches := mapTable (fun b => Branch.restart s.params (s.entry b)) s.branches
    freeze := none, zones := mapTable (fun _ => Zone.restart s.params.confirmWindow) s.zones
    park := s.park.map fun _ => { window := Timer.start s.params.parkWindow, confirmed := 0 }
    ports := mapTable (fun _ => LinkPort.restart) s.ports } := by
  unfold restartRecords restartFeeds dropSwitch
  cases flying : s.switch with
  | none => simp only [restartCycles, clearMeasurements, flying]; rfl
  | some w =>
    simp only [restartCycles, clearMeasurements, flying]
    split <;> rfl

theorem reportAbort_frame : reportAbort s = { s with
    incidents := (reportAbort s).incidents, ports := (reportAbort s).ports, saveAborted := (reportAbort s).saveAborted } := by
  simp only [reportAbort, report]
  split
  · split <;> rfl
  · rfl

/-- From `s` to `t` a warm reset completes but for the first round: the records restart and SAVE_ABORTED is reported. -/
def completedRecords : State := reportAbort (restartRecords s)

theorem completedRecords_eq : completedRecords s = { s with
    measured := Vector.replicate 48 Measurement.cleared, segments := Vector.replicate 16 SegmentRecord.cleared
    head := HeadRecord.cleared, scanner := { s.scanner with number := 0 }
    timer := CycleTimer.restarted s.clock, summary := CycleSummary.cleared s.activeFeed, switch := none
    feeds := mapTable (fun _ => FeedRecord.restart) (dropSwitch s).feeds
    startup := s.startup.map fun _ => Timer.start s.params.switchWindow
    branches := mapTable (fun b => Branch.restart s.params (s.entry b)) s.branches
    freeze := none, zones := mapTable (fun _ => Zone.restart s.params.confirmWindow) s.zones
    park := s.park.map fun _ => { window := Timer.start s.params.parkWindow, confirmed := 0 }
    incidents := (completedRecords s).incidents, ports := (completedRecords s).ports
    saveAborted := (completedRecords s).saveAborted } := by
  rw [completedRecords, reportAbort_frame, restartRecords_eq]

theorem completeReset_eq : completeReset s = startRound (completedRecords s) := rfl

/-! ### What the completion leaves -/

theorem completeReset_branch (b : BranchId) :
    (completeReset s).branch b = Branch.restart s.params (s.entry b) (s.branch b) := by
  rw [completeReset_eq, startRound_eq, completedRecords_eq]
  exact get_mapTable _ _ _

theorem completeReset_feed (f : Feed) : (completeReset s).feed f =
    { inlet := if ∃ w, s.switch = some w ∧ w.phase = .opening ∧ w.target = f then .closed else (s.feed f).inlet
      failed := false, lowTimer := none, proof := 0 } := by
  rw [← dropSwitch_inlet, completeReset_eq, startRound_eq, completedRecords_eq]
  exact get_mapTable _ _ _

theorem completeReset_zone (z : SegId) : (completeReset s).zone z = { s.zone z with
    confirm := (s.zone z).confirm.map fun _ => { remaining := Timer.start s.params.confirmWindow, running := true } } := by
  rw [completeReset_eq, startRound_eq, completedRecords_eq]
  exact get_mapTable _ _ _

theorem completeReset_measure (b : BranchId) : (completeReset s).measure b = Measurement.cleared := by
  rw [completeReset_eq, startRound_eq, completedRecords_eq]
  simp [State.measure, Vector.get]

theorem completeReset_segment (z : SegId) : (completeReset s).segment z = SegmentRecord.cleared := by
  rw [completeReset_eq, startRound_eq, completedRecords_eq]
  simp [State.segment, Vector.get]

/-- The first exchange is that of segment module 0, with the commands of the restarted records. -/
theorem completeReset_scanner : (completeReset s).scanner =
    { number := 1, exchange := some { module := 0, command := commandFor (completeReset s) 0, began := s.clock }, next := 1
      roundStart := s.clock, roundInterval := s.params.scanInterval } := by
  have command : commandFor (completeReset s) 0 = commandFor (completedRecords s) 0 := rfl
  rw [command, completeReset_eq, startRound_eq]
  dsimp only
  generalize commandFor (completedRecords s) 0 = c
  rw [completedRecords_eq]
  rfl

theorem LinkPort.restart_eq (x : LinkPort) : x.restart = { x with flags := 0x200#10 } := by
  simp [LinkPort.restart, LinkPort.flag, Notice.bit]
  decide

theorem LinkPort.flag_incident (x : LinkPort) :
    LinkPort.flag .incident { x with flags := 0x200#10 } = { x with flags := 0x201#10 } := by
  simp [LinkPort.flag, Notice.bit]
  decide

theorem restart_port (p : Port) : (restartRecords s).port p = { s.port p with flags := 0x200#10 } := by
  rw [restartRecords_eq, ← LinkPort.restart_eq]
  exact get_mapTable _ _ _

variable {s}

theorem completeReset_ports : (completeReset s).ports = (completedRecords s).ports := rfl

theorem completeReset_incidents : (completeReset s).incidents = (completedRecords s).incidents := rfl

theorem completedRecords_saved (saved : s.saveAborted = false) : completedRecords s = restartRecords s := by
  have kept : (restartRecords s).saveAborted = s.saveAborted := by rw [restartRecords_eq]
  rw [completedRecords, reportAbort, kept, saved]
  rfl

theorem completedRecords_aborted (aborted : s.saveAborted = true) : completedRecords s =
    report .saveAborted .nothing none { restartRecords s with saveAborted := false } := by
  have kept : (restartRecords s).saveAborted = s.saveAborted := by rw [restartRecords_eq]
  rw [completedRecords, reportAbort, kept, if_pos aborted]

/-- A report sets INCIDENT on every port or on none. -/
theorem report_port_cases (kind : Kind) (subject : Subject) (detail : Option Int) (t : State) (p : Port) :
    (report kind subject detail t).port p = t.port p ∨ (report kind subject detail t).port p = (t.port p).flag .incident := by
  simp only [report]
  split
  · rw [notifyAll_port]
    exact .inr rfl
  · exact .inl rfl

theorem completeReset_saved (saved : s.saveAborted = false) :
    (∀ p, (completeReset s).port p = { s.port p with flags := 0x200#10 }) ∧ (completeReset s).incidents = s.incidents := by
  have same := completedRecords_saved saved
  refine ⟨fun p => ?_, ?_⟩
  · rw [← restart_port, ← same]
    rfl
  · rw [completeReset_incidents, same, restartRecords_eq]

theorem completeReset_aborted (aborted : s.saveAborted = true) :
    (completeReset s).saveAborted = false ∧
      (completeReset s).incidents = (report .saveAborted .nothing none s).incidents ∧
      ∀ p, (completeReset s).port p = { s.port p with flags := 0x200#10 } ∨
        (completeReset s).port p = { s.port p with flags := 0x201#10 } := by
  have reported := completedRecords_aborted aborted
  refine ⟨?_, ?_, fun p => ?_⟩
  · change (completedRecords s).saveAborted = false
    rw [reported, report_saveAborted]
  · rw [completeReset_incidents, reported]
    apply report_incidents_congr <;> rw [restartRecords_eq]
  · have flagged := report_port_cases .saveAborted .nothing none { restartRecords s with saveAborted := false } p
    rw [← reported] at flagged
    change (completeReset s).port p = (restartRecords s).port p ∨
      (completeReset s).port p = ((restartRecords s).port p).flag .incident at flagged
    rwa [restart_port, LinkPort.flag_incident] at flagged

end Reset

/-! ### The taking of a reset -/

theorem takeReset_eq (s : State) : takeReset s = { s with
    ports := (takeReset s).ports, scanner := { s.scanner with exchange := none }
    store := { save := none, queue := s.store.queue, write := none, retry := none }
    saveAborted := s.saveAborted || s.store.save.isSome, imageTorn := s.imageTorn || s.store.save.isSome
    restartDue := false } := rfl

theorem takeReset_port (s : State) (p : Port) : (takeReset s).port p = { s.port p with rx := .idle, answer := none } :=
  get_mapTable _ _ _

theorem lowerReset_high {s : State} (high : s.resetLow = false) :
    lowerReset s = if s.loading then { s with resetLow := true } else takeReset { s with resetLow := true } := by
  rw [lowerReset, high]
  rfl

theorem lowerReset_low {s : State} (low : s.resetLow = true) : lowerReset s = s := if_pos low

theorem raiseReset_low {s : State} (low : s.resetLow = true) :
    raiseReset s = if s.loading then { s with resetLow := false } else completeReset { s with resetLow := false } := by
  rw [raiseReset, if_pos low]

theorem raiseReset_high {s : State} (high : s.resetLow = false) : raiseReset s = s := by
  rw [raiseReset, high]
  rfl

/-- Settles O51: the sources by the level of RESET_N and the RESTART answered, then the taking and the completion. -/
theorem aWarmResetRestartsThePart : Obligations.AWarmResetRestartsThePart := by
  intro s after u low taken done
  have resetLow : u.resetLow = s.resetLow := s.elapse_resetLow after
  have loading : u.loading = s.loading := s.elapse_loading after
  have restartDue : u.restartDue = s.restartDue := s.elapse_restartDue after
  have restarts (runs : s.running = true) : exec (.restartReset after) s = .next (restartNow u) := exec_restartReset after runs
  have lowers : exec (.resetNAssert after) s = .next (lowerReset u) := exec_resetNAssert after s
  have raises : exec (.resetNRelease after) s = .next (raiseReset u) := exec_resetNRelease after s
  clear_value u
  refine ⟨exec_restart, fun runs due => ?_, fun runs idle => ?_, fun high => ?_, fun lowered => ?_, fun lowered => ?_,
    fun high => ?_, ⟨takeReset_port s, takeReset_eq s⟩, ?_, fun b => ?_, ?_, completeReset_feed s, completeReset_zone s, ?_,
    ⟨completeReset_measure s, completeReset_segment s, ?_, completeReset_scanner s⟩, completeReset_saved,
    completeReset_aborted⟩
  · rw [restarts runs, restartNow, if_pos (restartDue.trans due)]
  · rw [restarts runs, restartNow, restartDue, idle]
    rfl
  · rw [lowers, lowerReset_high (resetLow.trans high), ← loading]
  · rw [raises, raiseReset_low (resetLow.trans lowered), ← loading]
  · rw [lowers, lowerReset_low (resetLow.trans lowered)]
  · rw [raises, raiseReset_high (resetLow.trans high)]
  · have kept := completedRecords_eq s
    dsimp only [done]
    rw [completeReset_eq, startRound_eq]
    generalize completedRecords s = t at kept ⊢
    rw [kept]
    exact ⟨rfl, rfl, rfl, rfl, rfl, rfl, rfl, rfl, rfl, rfl, rfl, rfl, rfl, rfl, rfl, rfl⟩
  · dsimp only [done]
    rw [completeReset_branch, Branch.restart, MapEntry.startTtl_eq]
    cases (s.branch b).state <;> rfl
  · have kept := completedRecords_eq s
    dsimp only [done]
    rw [completeReset_eq, startRound_eq]
    generalize completedRecords s = t at kept ⊢
    rw [kept]
    exact ⟨rfl, rfl, rfl, rfl, rfl⟩
  · dsimp only [done]
    rw [completeReset_eq, startRound_eq, completedRecords_eq]
  · dsimp only [done]
    rw [completeReset_eq, startRound_eq, completedRecords_eq]

end Sys2Proof.Machine

/-! The stored image judged: its entries one by one, and what the judgement depends on (R16, R191, R192). -/

namespace Sys2Proof.Machine

open Sys2Proof

/-! ### One entry of the image -/

section Entry

variable {image : List Byte} {s : State} {b : BranchId}

theorem entryOfBytes_drop (bytes : List Byte) (n : Nat) : entryOfBytes (bytes.drop n) 1 = entryOfBytes bytes (n + 1) := by
  simp only [entryOfBytes, at2, at1_drop, Nat.add_assoc]

theorem storedEntry_unusable (unusable : ¬ (at1 image (entryPlace b) = 1 ∧ at1 image (entryPlace b + 1) < 128 ∧
    at1 image (entryPlace b + 2) < 2 ∧ at1 image (entryPlace b + 3) < 2 ∧ at1 image (entryPlace b + 7) < 3)) :
    storedEntry image b = none := by
  by_cases flag : at1 image (entryPlace b) = 1
  · rw [storedEntry, if_pos flag, ← entryOfBytes_drop, entryOfBytes_none]
    · rfl
    · simp only [at1_drop]
      omega
  · rw [storedEntry, if_neg flag]

/-- Bytes that hold a flag, a tag and choice codes in their lists are the entry of R9's values. -/
theorem storedEntry_written {tag : SlotTag} {auto : Bool} {authority : Authority} {policy : TtlPolicy}
    (flag : at1 image (entryPlace b) = 1) (tagByte : at1 image (entryPlace b + 1) = tag.val)
    (autoByte : at1 image (entryPlace b + 2) = if auto then 1 else 0)
    (authorityByte : at1 image (entryPlace b + 3) = authority.code) (policyByte : at1 image (entryPlace b + 7) = policy.code) :
    storedEntry image b = some (writtenEntry tag auto authority (at1 image (entryPlace b + 4))
      (at2 image (entryPlace b + 5)) policy (at2 image (entryPlace b + 8))) := by
  have tagged : slotTagOf (at1 image (entryPlace b + 1)) = some tag := by
    rw [tagByte, slotTagOf, dif_pos tag.isLt]
  have automatic : boolOfCode (at1 image (entryPlace b + 2)) = some auto := by
    rw [autoByte]
    cases auto <;> rfl
  have restored : authorityOfCode (at1 image (entryPlace b + 3)) = some authority := by
    rw [authorityByte]
    cases authority <;> rfl
  have lived : ttlPolicyOfCode (at1 image (entryPlace b + 7)) = some policy := by
    rw [policyByte]
    cases policy <;> rfl
  have gain (n : Nat) (fits : n < 256) : gainRange n = max 1 n := by
    rw [gainRange, saturate_natCast (by decide)]; omega
  have prime (n : Nat) : primeRange n = max 50 (min n 1000) := by
    rw [primeRange, saturate_natCast (by decide)]; omega
  have time (n : Nat) : ttlRange n = max 50 (min n 36000) := by
    rw [ttlRange, saturate_natCast (by decide)]; omega
  rw [storedEntry, if_pos flag]
  unfold entryOfBytes
  simp only [Nat.add_assoc, Nat.reduceAdd, tagged, automatic, restored, lived, gain _ (at1_lt _ _), prime, time]
  rfl

theorem loadEntry_duplicate {e : MapEntry} {tag : SlotTag} (stored : storedEntry image b = some e)
    (carried : e.slotTag = some tag) (taken : ∃ c, c < b ∧ (s.entry c).slotTag = some tag) :
    loadEntry image s b = report .mapDuplicate (.branch b) (some tag.val) (s.setEntry b MapEntry.default) := by
  unfold loadEntry
  rw [stored]
  dsimp only
  rw [carried]
  dsimp only
  rw [if_pos]
  simpa [allBranches] using taken

/-! ### What the load of the entries depends on -/

/-- Two states from which the load of the entries does the same to the map and to the Incident List. -/
def LoadsAlike (s t : State) : Prop := t.map = s.map ∧ t.incidents = s.incidents ∧ t.clock = s.clock

theorem LoadsAlike.next {t : State} (h : LoadsAlike s t) : LoadsAlike (loadEntry image s b) (loadEntry image t b) := by
  obtain ⟨map, incidents, clock⟩ := h
  have entry (c : BranchId) : t.entry c = s.entry c := by rw [State.entry, map, State.entry]
  have written (e : MapEntry) : (t.setEntry b e).map = (s.setEntry b e).map := by
    rw [State.setEntry, State.setEntry, map]
  unfold loadEntry
  split
  · exact ⟨written _, incidents, clock⟩
  · split
    · exact ⟨written _, incidents, clock⟩
    · simp only [entry]
      split
      · refine ⟨?_, ?_, ?_⟩
        · rw [report_map, report_map, written]
        · exact report_incidents_congr (s := s.setEntry b _) (t := t.setEntry b _) incidents clock _ _ _
        · rw [report_clock, report_clock]
          exact clock
      · exact ⟨written _, incidents, clock⟩

theorem LoadsAlike.foldl (bs : List BranchId) : ∀ {s t : State}, LoadsAlike s t →
    LoadsAlike (bs.foldl (loadEntry image) s) (bs.foldl (loadEntry image) t) := by
  induction bs with
  | nil => exact id
  | cons b bs ih => exact fun h => ih h.next

/-- The map that an image loads depends on the map before alone. -/
theorem loadEntry_map_congr {t : State} (map : t.map = s.map) : (loadEntry image t b).map = (loadEntry image s b).map := by
  have entry (c : BranchId) : t.entry c = s.entry c := by rw [State.entry, map, State.entry]
  have written (e : MapEntry) : (t.setEntry b e).map = (s.setEntry b e).map := by
    rw [State.setEntry, State.setEntry, map]
  unfold loadEntry
  split
  · exact written _
  · split
    · exact written _
    · simp only [entry]
      split
      · rw [report_map, report_map, written]
      · exact written _

theorem foldl_loadEntry_map_congr (bs : List BranchId) : ∀ {s t : State}, t.map = s.map →
    (bs.foldl (loadEntry image) t).map = (bs.foldl (loadEntry image) s).map := by
  induction bs with
  | nil => exact id
  | cons b bs ih => exact fun map => ih (loadEntry_map_congr map)

theorem loadImage_map_congr {t : State} (map : t.map = s.map) : (loadImage image t).map = (loadImage image s).map := by
  rw [loadImage, loadImage, loadPolicies_map, loadPolicies_map]
  exact foldl_loadEntry_map_congr allBranches map

/-- The parameters and the policies of an image do not touch what its entries leave. -/
theorem loadImage_alike (image : List Byte) (s : State) :
    LoadsAlike (allBranches.foldl (loadEntry image) s) (loadImage image s) := by
  have alike : LoadsAlike s { s with params := Params.load fun n => signedAt4 image (4 + 4 * (n - 1)) } := ⟨rfl, rfl, rfl⟩
  exact alike.foldl (image := image) allBranches

end Entry

/-! ### The defaults of an image that is not good -/

theorem loadDefaults_params (s : State) : (loadDefaults s).params = Params.default := by
  rw [loadDefaults, report_params]

theorem loadDefaults_entry (s : State) (b : BranchId) : (loadDefaults s).entry b = MapEntry.default := by
  rw [loadDefaults, report_entry]
  simp [State.entry, Vector.get]

theorem loadDefaults_policy (s : State) (z : SegId) : ((loadDefaults s).zone z).policy = .auto := by
  rw [loadDefaults, report_zone]
  change ((mapTable (fun _ x => { x with policy := ZonePolicy.auto }) s.zones).get z).policy = _
  rw [get_mapTable]

theorem loadDefaults_incidents (s : State) :
    (loadDefaults s).incidents = (report .storeInvalid .nothing none s).incidents := by
  rw [loadDefaults]
  apply report_incidents_congr <;> rfl

theorem loadDefaults_clock (s : State) : (loadDefaults s).clock = s.clock := by
  rw [loadDefaults, report_clock]

/-! ### The judgement -/

/-- The image of a state as the load judges it: read, left by no unfinished save, and good by its bytes (R191, R193). -/
def imageGood (imageRead : Bool) (s : State) : Prop :=
  imageRead = true ∧ s.imageTorn = false ∧ at2 (storedImage s) 0 = 1 ∧ at2 (storedImage s) 2 = 620 ∧
    (crc16 ((storedImage s).take 620)).toNat = at2 (storedImage s) 620

theorem loadStore_good {imageRead : Bool} {s : State} (good : imageGood imageRead s) :
    loadStore imageRead s = loadImage (storedImage s) s := by
  rw [loadStore, if_pos]
  simpa [goodImage, imageGood, and_assoc] using good

theorem loadStore_bad {imageRead : Bool} {s : State} (bad : ¬ imageGood imageRead s) :
    loadStore imageRead s = loadDefaults s := by
  rw [loadStore, if_neg]
  simpa [goodImage, imageGood, and_assoc] using bad

theorem storedMark_iff (eeprom : List Host.Cell) (marksRead : Bool) (b : BranchId) :
    storedMark eeprom marksRead b = true ↔ marksRead = false ∨
      markReadsSet (readByte eeprom (4096 + 2 * b.val)) (readByte eeprom (4096 + 2 * b.val + 1)) := by
  have base : Config.marksBase = 4096 := rfl
  rw [storedMark, base, markReadsSet, readsAsSet]
  cases marksRead <;> simp
  tauto

theorem judgeMarks_params (marksRead : Bool) (s : State) : (judgeMarks marksRead s).params = s.params := by
  unfold judgeMarks
  split
  · rfl
  · rw [report_params]

end Sys2Proof.Machine

/-! The end of the store load: the start states, the marks queued, and the start of the part (R61, R135, R191, R192). -/

namespace Sys2Proof.Machine

open Sys2Proof

/-! ### The marks of the start states -/

section Marks

variable {marksRead : Bool} {s : State} {b : BranchId}

theorem startBranch_queue_marked (marked : storedMark s.eeprom marksRead b = true)
    (fresh : (s.branch b).state.isIsolation = false) :
    (startBranch marksRead s b).store.queue = queueMark b true s.store.queue := by
  rw [startBranch, if_pos marked, takeOrder, fresh]
  rfl

theorem startBranch_store_unmarked (unmarked : storedMark s.eeprom marksRead b = false) :
    (startBranch marksRead s b).store = s.store := by
  rw [startBranch, unmarked]
  simp only [Bool.false_eq_true, if_false]
  split
  · rfl
  · split <;> rfl

theorem startBranch_eeprom (marksRead : Bool) (s : State) (b : BranchId) :
    (startBranch marksRead s b).eeprom = s.eeprom := by
  rw [startBranch_frame]

theorem startBranch_other {c : BranchId} (other : c ≠ b) : (startBranch marksRead s b).branch c = s.branch c := by
  rw [startBranch_frame]
  change (s.setBranch b _).branch c = _
  rw [State.setBranch_branch, if_neg other]

/-- The mark writes of the marked branches among some. -/
def markedWrites (marksRead : Bool) (eeprom : List Host.Cell) (bs : List BranchId) : List MarkEntry :=
  (bs.filter (storedMark eeprom marksRead)).map fun b => { branch := b, value := true }

theorem markedWrites_branch {marksRead : Bool} {eeprom : List Host.Cell} {bs : List BranchId} {e : MarkEntry}
    (queued : e ∈ markedWrites marksRead eeprom bs) : e.branch ∈ bs := by
  obtain ⟨c, listed, rfl⟩ := List.mem_map.mp queued
  exact List.mem_of_mem_filter listed

theorem val_lt_of_mem_take {n k : Nat} {c : Fin n} (early : c ∈ (List.finRange n).take k) : c.val < k := by
  obtain ⟨i, below, here⟩ := List.mem_take_iff_getElem.mp early
  rw [List.getElem_finRange] at here
  subst here
  exact (Nat.lt_min.mp below).1

theorem take_finRange_succ {n : Nat} (b : Fin n) :
    (List.finRange n).take (b.val + 1) = (List.finRange n).take b.val ++ [b] := by
  have here : b.val < (List.finRange n).length := by simp
  rw [List.take_succ_eq_append_getElem here, List.getElem_finRange]
  rfl

/-- The start states of the first `k` branches have queued their marks, in ascending index, and the others still stand. -/
structure MarksQueued (marksRead : Bool) (s : State) (k : Nat) (t : State) : Prop where
  queue : t.store.queue = markedWrites marksRead s.eeprom (allBranches.take k)
  rest : ∀ c : BranchId, k ≤ c.val → t.branch c = s.branch c
  eeprom : t.eeprom = s.eeprom

theorem MarksQueued.next {t : State} (fresh : ∀ c, (s.branch c).state.isIsolation = false)
    (h : MarksQueued marksRead s b t) : MarksQueued marksRead s (b + 1) (startBranch marksRead t b) := by
  obtain ⟨queue, rest, eeprom⟩ := h
  refine ⟨?_, fun c later => ?_, (startBranch_eeprom ..).trans eeprom⟩
  · have more : markedWrites marksRead s.eeprom (allBranches.take (b + 1)) =
        markedWrites marksRead s.eeprom (allBranches.take b) ++ markedWrites marksRead s.eeprom [b] := by
      rw [allBranches, take_finRange_succ, markedWrites, List.filter_append, List.map_append]
      rfl
    cases mark : storedMark s.eeprom marksRead b with
    | true =>
      rw [startBranch_queue_marked (by rwa [eeprom]) (by rw [rest b le_rfl]; exact fresh b), queue, more, queueMark_new]
      · simp [markedWrites, mark]
      · intro e queued own
        have := val_lt_of_mem_take (own ▸ markedWrites_branch queued)
        omega
    | false =>
      rw [startBranch_store_unmarked (by rwa [eeprom]), queue, more]
      simp [markedWrites, mark]
  · rw [startBranch_other (by rintro rfl; omega)]
    exact rest c (by omega)

theorem foldl_startBranch_queue (empty : s.store.queue = []) (fresh : ∀ c, (s.branch c).state.isIsolation = false) :
    (allBranches.foldl (startBranch marksRead) s).store.queue = markedWrites marksRead s.eeprom allBranches := by
  have queued : MarksQueued marksRead s 48 (allBranches.foldl (startBranch marksRead) s) :=
    foldl_finRange_induction (P := MarksQueued marksRead s) ⟨empty, fun _ _ => rfl, rfl⟩ fun _ _ => MarksQueued.next fresh
  rw [queued.queue, List.take_of_length_le (by simp [allBranches])]

/-- A start record carries a mark exactly where one is stored. -/
theorem startRecord_mark (marksRead : Bool) (s : State) (b : BranchId) :
    ((startRecord marksRead s b).isolationMark && (startRecord marksRead s b).state.isIsolation) =
      storedMark s.eeprom marksRead b := by
  unfold startRecord
  cases storedMark s.eeprom marksRead b with
  | true => rfl
  | false =>
    simp only [Bool.false_eq_true, if_false]
    split
    · rfl
    · split <;> rfl

/-- The queue holds a mark write for each branch that starts STORED, and for no other. -/
theorem foldl_startBranch_marks (empty : s.store.queue = []) (fresh : ∀ c, (s.branch c).state.isIsolation = false) :
    (allBranches.foldl (startBranch marksRead) s).store.queue = (allBranches.filter fun b =>
      ((allBranches.foldl (startBranch marksRead) s).branch b).isolationMark &&
        ((allBranches.foldl (startBranch marksRead) s).branch b).state.isIsolation).map
          fun b => { branch := b, value := true } := by
  have each (b : BranchId) : (allBranches.foldl (startBranch marksRead) s).branch b = startRecord marksRead s b :=
    (foldl_startBranch_started marksRead s).started b b.isLt
  simp only [each, startRecord_mark]
  exact foldl_startBranch_queue empty fresh

end Marks

/-! ### The judged load and its start states -/

/-- The load judged: the image, then the marks (R191, R192). -/
def judgedLoad (imageRead marksRead : Bool) (s : State) : State := judgeMarks marksRead (loadStore imageRead s)

/-- The judged load with the start states of its branches (R61). -/
def startedLoad (imageRead marksRead : Bool) (s : State) : State :=
  allBranches.foldl (startBranch marksRead) (judgedLoad imageRead marksRead s)

/-- The feeds, the Cycle Timer and the first round started, the load over, and RESTARTED set (R135, R191). -/
def openedLoad (t : State) : State := notifyAll .restarted { startRound (restartCycles (startFeeds t)) with loading := false }

theorem finishLoad_eq (imageRead marksRead : Bool) (s : State) :
    finishLoad imageRead marksRead s = openedLoad (startedLoad imageRead marksRead s) := rfl

section Load

variable (imageRead marksRead : Bool) (s : State)

theorem judgeMarks_frame : judgeMarks marksRead s = { s with
    incidents := (judgeMarks marksRead s).incidents, ports := (judgeMarks marksRead s).ports } := by
  unfold judgeMarks
  split
  · rfl
  · exact report_frame _ _ _ s

theorem judgeMarks_incidents_congr {s t : State} (incidents : t.incidents = s.incidents) (clock : t.clock = s.clock) :
    (judgeMarks marksRead t).incidents = (judgeMarks marksRead s).incidents := by
  unfold judgeMarks
  split
  · exact incidents
  · exact report_incidents_congr incidents clock _ _ _

theorem startedLoad_frame : ∃ v x, startedLoad imageRead marksRead s =
    { judgedLoad imageRead marksRead s with branches := v, store := x } :=
  (foldl_startBranch_started marksRead (judgedLoad imageRead marksRead s)).frame

theorem startedLoad_branch (b : BranchId) :
    (startedLoad imageRead marksRead s).branch b = startRecord marksRead (judgedLoad imageRead marksRead s) b :=
  (foldl_startBranch_started marksRead (judgedLoad imageRead marksRead s)).started b b.isLt

theorem judgedLoad_frame : JudgedFrame s (judgedLoad imageRead marksRead s) :=
  (judgeMarks_judged (loadStore_judged imageRead s)).frame

/-- What the load and the start states leave alone. -/
theorem startedLoad_kept :
    (startedLoad imageRead marksRead s).clock = s.clock ∧ (startedLoad imageRead marksRead s).scanner = s.scanner ∧
      (startedLoad imageRead marksRead s).eeprom = s.eeprom ∧ (startedLoad imageRead marksRead s).resetLow = s.resetLow := by
  obtain ⟨v, x, started⟩ := startedLoad_frame imageRead marksRead s
  obtain ⟨p, m, z, l, w, judged⟩ := judgedLoad_frame imageRead marksRead s
  rw [started, judged]
  exact ⟨rfl, rfl, rfl, rfl⟩

/-- What the start states take over from the judged image. -/
theorem startedLoad_loaded :
    (startedLoad imageRead marksRead s).params = (loadStore imageRead s).params ∧
      (startedLoad imageRead marksRead s).map = (loadStore imageRead s).map ∧
      (startedLoad imageRead marksRead s).zones = (loadStore imageRead s).zones ∧
      (startedLoad imageRead marksRead s).incidents = (judgeMarks marksRead (loadStore imageRead s)).incidents := by
  obtain ⟨v, x, started⟩ := startedLoad_frame imageRead marksRead s
  rw [started, judgedLoad]
  refine ⟨?_, ?_, ?_, rfl⟩ <;> rw [judgeMarks_frame]

theorem judgedLoad_kept : (judgedLoad imageRead marksRead s).store = s.store ∧
    (judgedLoad imageRead marksRead s).branches = s.branches := by
  obtain ⟨p, m, z, l, w, judged⟩ := judgedLoad_frame imageRead marksRead s
  rw [judged]
  exact ⟨rfl, rfl⟩

theorem startedLoad_queue (empty : s.store.queue = []) (fresh : ∀ c, (s.branch c).state.isIsolation = false) :
    (startedLoad imageRead marksRead s).store.queue = (allBranches.filter fun b =>
      ((startedLoad imageRead marksRead s).branch b).isolationMark &&
        ((startedLoad imageRead marksRead s).branch b).state.isIsolation).map fun b => { branch := b, value := true } := by
  obtain ⟨store, branches⟩ := judgedLoad_kept imageRead marksRead s
  exact foldl_startBranch_marks (by rw [store, empty]) fun c => by
    rw [State.branch, branches]
    exact fresh c

end Load

/-! ### The start of the part -/

section Opened

variable (t : State)

theorem startFeeds_eq : startFeeds t = { t with
    feeds := (startFeeds t).feeds, activeFeed := t.params.preferredFeed
    startup := some (Timer.start t.params.switchWindow) } := rfl

/-- The scanner as the first round of a state starts. -/
def firstRound (t : State) : Scanner :=
  { number := t.scanner.number + 1, exchange := some { module := 0, command := commandFor t 0, began := t.clock }
    next := 1, roundStart := t.clock, roundInterval := t.params.scanInterval }

theorem startRound_restartCycles : startRound (restartCycles t) = { t with
    timer := CycleTimer.restarted t.clock, summary := CycleSummary.cleared t.activeFeed, scanner := firstRound t } := rfl

theorem firstRound_startFeeds : firstRound (startFeeds t) =
    { number := t.scanner.number + 1
      exchange := some { module := 0, command := commandFor (startFeeds t) 0, began := t.clock }
      next := 1, roundStart := t.clock, roundInterval := t.params.scanInterval } := rfl

theorem openedLoad_eq : openedLoad t = { t with
    feeds := (startFeeds t).feeds, activeFeed := t.params.preferredFeed
    startup := some (Timer.start t.params.switchWindow), timer := CycleTimer.restarted t.clock
    summary := CycleSummary.cleared t.params.preferredFeed, scanner := firstRound (startFeeds t), loading := false
    ports := mapTable (fun _ => LinkPort.flag .restarted) t.ports } := by
  rw [openedLoad, notifyAll, startRound_restartCycles]
  generalize firstRound (startFeeds t) = x
  rw [startFeeds_eq]

theorem openedLoad_scanner : (openedLoad t).scanner =
    { number := t.scanner.number + 1
      exchange := some { module := 0, command := commandFor (openedLoad t) 0, began := t.clock }, next := 1
      roundStart := t.clock, roundInterval := t.params.scanInterval } := by
  have command : commandFor (openedLoad t) 0 = commandFor (startFeeds t) 0 := by
    rw [openedLoad_eq]
    rfl
  rw [command, openedLoad_eq]
  exact firstRound_startFeeds t

theorem startFeeds_inlets : ((startFeeds t).feed t.params.preferredFeed).inlet = .opened ∧
    ((startFeeds t).feed t.params.preferredFeed.other).inlet = .closed := by
  rw [startFeeds]
  change (((t.setInlet _ .opened).setInlet _ .closed).feed _).inlet = _ ∧
    (((t.setInlet _ .opened).setInlet _ .closed).feed _).inlet = _
  rw [State.setInlet, State.setInlet]
  cases t.params.preferredFeed <;> simp [Feed.other]

theorem openedLoad_feed : ((openedLoad t).feed (openedLoad t).activeFeed).inlet = .opened ∧
    ((openedLoad t).feed (openedLoad t).activeFeed.other).inlet = .closed := by
  rw [openedLoad_eq]
  exact startFeeds_inlets t

/-- RESTARTED is bit 9. -/
theorem openedLoad_restarted (p : Port) : ((openedLoad t).port p).flags[9] = true := by
  have flagged : (openedLoad t).port p = (t.port p).flag .restarted := by
    rw [openedLoad_eq]
    exact get_mapTable _ _ _
  rw [flagged, LinkPort.flag]
  simp [Notice.bit]

end Opened

end Sys2Proof.Machine

/-! POWER_ON and STORE_LOAD_COMPLETE (R191, R192). -/

namespace Sys2Proof.Machine

open Sys2Proof

theorem exec_storeLoadComplete (after : Nat) (imageRead marksRead : Bool) (s : State) :
    exec (.storeLoadComplete after imageRead marksRead) s = .next (endLoad imageRead marksRead (s.elapse after)) := rfl

/-- What the end of the load leaves, of a part `s` to a part `t`, whether a RESET_N still low is then taken or not. -/
structure Loaded (imageRead marksRead : Bool) (s t : State) : Prop where
  params : t.params = (loadStore imageRead s).params
  map : t.map = (loadStore imageRead s).map
  zones : t.zones = (loadStore imageRead s).zones
  incidents : t.incidents = (judgeMarks marksRead (loadStore imageRead s)).incidents
  branch : ∀ b, t.branch b = startRecord marksRead t b
  queue : s.store.queue = [] → (∀ c, (s.branch c).state.isIsolation = false) →
    t.store.queue = (allBranches.filter fun b => (t.branch b).isolationMark && (t.branch b).state.isIsolation).map
      fun b => { branch := b, value := true }
  feeds : t.activeFeed = t.params.preferredFeed ∧ (t.feed t.activeFeed).inlet = .opened ∧
    (t.feed t.activeFeed.other).inlet = .closed ∧ t.startup = some (.start t.params.switchWindow)
  timer : t.timer = CycleTimer.restarted s.clock
  loading : t.loading = false
  eeprom : t.eeprom = s.eeprom
  restarted : ∀ p, (t.port p).flags[9] = true

section Opened

variable {imageRead marksRead : Bool} {s : State}

theorem startRecord_congr {t u : State} (eeprom : t.eeprom = u.eeprom) (params : t.params = u.params) (map : t.map = u.map)
    (b : BranchId) : startRecord marksRead t b = startRecord marksRead u b := by
  have entry : t.entry b = u.entry b := by rw [State.entry, map, State.entry]
  simp only [startRecord, eeprom, params, entry]

theorem startedLoad_startRecord (b : BranchId) :
    (startedLoad imageRead marksRead s).branch b = startRecord marksRead (startedLoad imageRead marksRead s) b := by
  rw [startedLoad_branch]
  obtain ⟨v, x, started⟩ := startedLoad_frame imageRead marksRead s
  rw [started]
  exact startRecord_congr rfl rfl rfl b

theorem finishLoad_loaded : Loaded imageRead marksRead s (finishLoad imageRead marksRead s) := by
  obtain ⟨clock, -, eeprom, -⟩ := startedLoad_kept imageRead marksRead s
  obtain ⟨params, map, zones, incidents⟩ := startedLoad_loaded imageRead marksRead s
  have queue := startedLoad_queue imageRead marksRead s
  have branch (b : BranchId) := startedLoad_startRecord (imageRead := imageRead) (marksRead := marksRead) (s := s) b
  rw [finishLoad_eq]
  generalize startedLoad imageRead marksRead s = t at clock eeprom params map zones incidents queue branch ⊢
  have feeds := openedLoad_feed t
  have restarted := openedLoad_restarted t
  rw [openedLoad_eq] at feeds restarted ⊢
  obtain ⟨active, standby⟩ := feeds
  refine ⟨params, map, zones, incidents, fun b => ?_, queue, ⟨rfl, active, standby, rfl⟩, ?_, rfl, eeprom, restarted⟩
  · exact (branch b).trans (startRecord_congr rfl rfl rfl b)
  · rw [← clock]

/-- A reset taken at the end of the load keeps all of it. -/
theorem Loaded.takeReset {t : State} (h : Loaded imageRead marksRead s t) : Loaded imageRead marksRead s (takeReset t) where
  params := h.params
  map := h.map
  zones := h.zones
  incidents := h.incidents
  branch b := (h.branch b).trans (startRecord_congr rfl rfl rfl b)
  queue := h.queue
  feeds := h.feeds
  timer := h.timer
  loading := h.loading
  eeprom := h.eeprom
  restarted p := by
    rw [takeReset_port]
    exact h.restarted p

theorem finishLoad_resetLow : (finishLoad imageRead marksRead s).resetLow = s.resetLow := by
  obtain ⟨-, -, -, resetLow⟩ := startedLoad_kept imageRead marksRead s
  rw [finishLoad_eq, openedLoad_eq]
  exact resetLow

theorem endLoad_high (loading : s.loading = true) (high : s.resetLow = false) :
    endLoad imageRead marksRead s = finishLoad imageRead marksRead s := by
  rw [endLoad, if_pos loading]
  exact if_neg (by rw [finishLoad_resetLow, high]; decide)

theorem endLoad_low (loading : s.loading = true) (low : s.resetLow = true) :
    endLoad imageRead marksRead s = takeReset (finishLoad imageRead marksRead s) := by
  rw [endLoad, if_pos loading]
  exact if_pos (finishLoad_resetLow.trans low)

theorem endLoad_loaded (loading : s.loading = true) : Loaded imageRead marksRead s (endLoad imageRead marksRead s) := by
  cases line : s.resetLow with
  | false => rw [endLoad_high loading line]; exact finishLoad_loaded
  | true => rw [endLoad_low loading line]; exact finishLoad_loaded.takeReset

/-- With RESET_N high the first round starts with the next exchange number; low, the reset is taken. -/
theorem endLoad_scanner (loading : s.loading = true) (high : s.resetLow = false) :
    (endLoad imageRead marksRead s).scanner =
      { number := s.scanner.number + 1
        exchange := some { module := 0, command := commandFor (endLoad imageRead marksRead s) 0, began := s.clock }
        next := 1, roundStart := s.clock, roundInterval := (endLoad imageRead marksRead s).params.scanInterval } := by
  obtain ⟨clock, scanner, -, -⟩ := startedLoad_kept imageRead marksRead s
  rw [endLoad_high loading high, finishLoad_eq]
  generalize startedLoad imageRead marksRead s = t at clock scanner
  rw [← clock, ← scanner, openedLoad_scanner]
  generalize commandFor (openedLoad t) 0 = c
  rw [openedLoad_eq]

theorem endLoad_held (loading : s.loading = true) (low : s.resetLow = true) :
    (endLoad imageRead marksRead s).scanner.exchange = none ∧
      ∀ p, ((endLoad imageRead marksRead s).port p).rx = .idle := by
  rw [endLoad_low loading low]
  exact ⟨rfl, fun p => by rw [takeReset_port]⟩

end Opened

/-! ### The start records by mark and entry (R61) -/

section Records

variable {marksRead : Bool} {t : State} {b : BranchId}

theorem startRecord_marked (marked : storedMark t.eeprom marksRead b = true) :
    startRecord marksRead t b = Branch.toIsolating .stored t.params.isolateWindow := if_pos marked

theorem startRecord_blank (unmarked : ¬ storedMark t.eeprom marksRead b = true) (blank : (t.entry b).slotTag = none) :
    startRecord marksRead t b = Branch.initial := by
  rw [startRecord, if_neg unmarked, if_pos blank]

theorem startRecord_primes (unmarked : ¬ storedMark t.eeprom marksRead b = true) (valid : (t.entry b).slotTag ≠ none)
    (auto : (t.entry b).autoAdmit = true) :
    startRecord marksRead t b = { Branch.initial with
      state := .priming, attempts := 1, timer := some (.start t.params.primeWindow), supply := (t.entry b).primePosition
      ret := .opened } := by
  rw [startRecord, if_neg unmarked, if_neg valid, if_pos auto]
  rfl

theorem startRecord_waits (unmarked : ¬ storedMark t.eeprom marksRead b = true) (valid : (t.entry b).slotTag ≠ none)
    (manual : (t.entry b).autoAdmit = false) : startRecord marksRead t b = { Branch.initial with state := .vacant } := by
  rw [startRecord, if_neg unmarked, if_neg valid, manual]
  rfl

end Records

end Sys2Proof.Machine

/-! POWER_ON and STORE_LOAD_COMPLETE: what the load takes over, and the statement as a whole (R191, R192). -/

namespace Sys2Proof.Machine

open Sys2Proof

section Taken

variable {imageRead marksRead : Bool} {s t : State}

theorem Loaded.good (h : Loaded imageRead marksRead s t) (good : imageGood imageRead s) :
    t.params = (loadImage (storedImage s) s).params ∧ t.map = (loadImage (storedImage s) s).map ∧
      (∀ z, (t.zone z).policy = ((loadImage (storedImage s) s).zone z).policy) ∧
      t.incidents = (judgeMarks marksRead (allBranches.foldl (loadEntry (storedImage s)) s)).incidents := by
  obtain ⟨params, map, zones, incidents, -⟩ := h
  rw [loadStore_good good] at params map zones incidents
  obtain ⟨-, sameIncidents, sameClock⟩ := loadImage_alike (storedImage s) s
  refine ⟨params, map, fun z => ?_, incidents.trans (judgeMarks_incidents_congr marksRead sameIncidents sameClock)⟩
  rw [State.zone, zones, State.zone]

theorem Loaded.bad (h : Loaded imageRead marksRead s t) (bad : ¬ imageGood imageRead s) :
    t.params = Params.default ∧ (∀ b, t.entry b = MapEntry.default) ∧ (∀ z, (t.zone z).policy = .auto) ∧
      t.incidents = (judgeMarks marksRead (report .storeInvalid .nothing none s)).incidents := by
  obtain ⟨params, map, zones, incidents, -⟩ := h
  rw [loadStore_bad bad] at params map zones incidents
  have sameClock : (loadDefaults s).clock = (report .storeInvalid .nothing none s).clock := by
    rw [loadDefaults_clock, report_clock]
  refine ⟨params.trans (loadDefaults_params s), fun b => ?_, fun z => ?_,
    incidents.trans (judgeMarks_incidents_congr marksRead (loadDefaults_incidents s) sameClock)⟩
  · rw [State.entry, map]
    exact loadDefaults_entry s b
  · rw [State.zone, zones]
    exact loadDefaults_policy s z

end Taken

theorem exec_storeLoadComplete_loaded {s : State} (after : Nat) (imageRead marksRead : Bool) (loaded : s.loading = false) :
    exec (.storeLoadComplete after imageRead marksRead) s = .next (s.elapse after) := by
  rw [exec_storeLoadComplete, endLoad, State.elapse_loading, loaded]
  rfl

/-- A passage of time during the load moves the clock alone. -/
theorem State.elapse_loads {s : State} (loads : s.loading = true) (after : Nat) :
    s.elapse after = { s with clock := s.clock + after } :=
  State.elapse_stopped (by simp [State.running, loads]) after

/-- Settles O52: POWER_ON by its definition, the end of the load by what it leaves, and each entry by its bytes. -/
theorem powerOnLoadsTheStore : Obligations.PowerOnLoadsTheStore := by
  refine ⟨fun s => rfl, fun s after imageRead marksRead => ⟨exec_storeLoadComplete_loaded after imageRead marksRead,
    fun loads => ?_⟩, fun image s b => ⟨fun unusable => loadEntry_none (storedEntry_unusable unusable),
      fun tag auto authority policy flag tagByte autoByte authorityByte policyByte => ?_⟩⟩
  · refine ⟨_, exec_storeLoadComplete after imageRead marksRead s, ?_⟩
    have loading : (s.elapse after).loading = true := (s.elapse_loading after).trans loads
    have opened : Loaded imageRead marksRead (s.elapse after) (endLoad imageRead marksRead (s.elapse after)) :=
      endLoad_loaded loading
    have scanner := endLoad_scanner (imageRead := imageRead) (marksRead := marksRead) loading
    have held := endLoad_held (imageRead := imageRead) (marksRead := marksRead) loading
    generalize endLoad imageRead marksRead (s.elapse after) = t at opened scanner held ⊢
    rw [State.elapse_loads loads] at opened scanner held ⊢
    refine ⟨⟨fun good => ?_, opened.bad⟩, fun b => ?_, opened.queue, opened.feeds, opened.timer, opened.loading,
      opened.eeprom, scanner, held, opened.restarted⟩
    · obtain ⟨params, map, policies, incidents⟩ := opened.good good
      refine ⟨?_, map.trans (loadImage_map_congr rfl), fun z => ?_, incidents⟩
      · rw [params, loadImage_params, loadImage_params]
        rfl
      · rw [policies, loadImage_policy, loadImage_policy]
        rfl
    · have same : t.eeprom = s.eeprom := opened.eeprom
      have marked := storedMark_iff t.eeprom marksRead b
      rw [opened.branch b]
      dsimp only
      rw [← same, ← marked]
      exact ⟨startRecord_marked, startRecord_blank, startRecord_primes, startRecord_waits⟩
  · have stored := storedEntry_written flag tagByte autoByte authorityByte policyByte
    exact ⟨loadEntry_duplicate stored rfl, loadEntry_some stored rfl⟩

end Sys2Proof.Machine
